-- ==== Sys2Proof/Word.lean ====
section
/-! DEFINITION. The word types of the block: the 32-bit word in which every `fix` and `phase` is held
(00_scope.md R10, R11), the 8-bit field, and the 64-bit command word (30_encoding.md R65). -/

namespace Sys2Proof

/-- A 32-bit word: a `fix` read signed (R10) or a `phase` read unsigned (R11). -/
abbrev Word := BitVec 32

/-- An 8-bit field of a command word: `op` or `a` (R65). -/
abbrev Byte := BitVec 8

/-- The 64-bit word of one command transfer (R65). -/
abbrev CmdWord := BitVec 64

end Sys2Proof
end

