-- ==== Sys2Proof/Syntax.lean ====
section
/-! DEFINITION. The six commands that stand where a processor has instructions (30_encoding.md R66), the
pseudo-commands of R73, and the waveform names of 43_oscillator.md R155. -/

namespace Sys2Proof

/-- One constructor per row of spec/opcode_table.json; the operands are the fields the command uses
(30_encoding.md R67), each of exactly the field's width, so every term of this type is a command of the block. -/
inductive Instr where
  /-- `NOP`, R85. -/
  | nop
  /-- `SETP a, v`, R86: parameter address and value word. -/
  | setp (a : Byte) (v : Word)
  /-- `GETP a`, R87: parameter address. -/
  | getp (a : Byte)
  /-- `NOTE a, b[0], v`, R88: pitch, gate, velocity word. -/
  | note (a : Byte) (gate : Bool) (v : Word)
  /-- `BLK`, R91. -/
  | blk
  /-- `TICK`, R92; its two data operands come from the sample ports, not from the word. -/
  | tick
deriving DecidableEq, Repr

/-- The pseudo-commands of 30_encoding.md R73. -/
inductive Pseudo where
  | render (n : Nat)
  | noteOn (pitch : Byte) (vel : Word)
  | noteOff (pitch : Byte)
deriving DecidableEq, Repr

/-- The eight waveforms in the document's order, numbered from 0 (43_oscillator.md R155). -/
inductive Waveform where
  | sawUp
  | sawDown
  | square
  | triangle
  | pulse
  | bipolarPulse
  | sampleHold
  | modulatedSine
deriving DecidableEq, Repr

end Sys2Proof
end

