-- ==== Sys2Proof/Decode.lean ====
section
/-! DEFINITION. The command format `CMD64` (30_encoding.md R65 to R74): the fields of a word, the decoder, total on
every 64-bit word, the encoder, the pseudo-commands, and the byte order in which a transport would carry a word
(20_memory.md R52). -/

namespace Sys2Proof

/-- `op = w[63:56]` (R65). -/
def opField (w : CmdWord) : Byte := w.extractLsb' 56 8

/-- `a = w[55:48]` (R65). -/
def aField (w : CmdWord) : Byte := w.extractLsb' 48 8

/-- `b = w[47:32]` (R65). -/
def bField (w : CmdWord) : BitVec 16 := w.extractLsb' 32 16

/-- `v = w[31:0]` (R65). -/
def vField (w : CmdWord) : Word := w.extractLsb' 0 32

/-- What a command word is: a command, or a word with a reserved opcode, rejected by that name (R69, R70 a). -/
inductive Decoded where
  | command (i : Instr)
  | reservedOpcode (op : Byte)
deriving DecidableEq, Repr

/-- The decoder: `op` alone selects, and only the fields the command uses are read (R65, R66, R67, R70 d). -/
def decode (w : CmdWord) : Decoded :=
  if opField w = 0x00 then .command .nop
  else if opField w = 0x01 then .command (.setp (aField w) (vField w))
  else if opField w = 0x02 then .command (.getp (aField w))
  else if opField w = 0x03 then .command (.note (aField w) ((bField w).getLsbD 0) (vField w))
  else if opField w = 0x04 then .command .blk
  else if opField w = 0x05 then .command .tick
  else .reservedOpcode (opField w)

/-- A word from its four fields (R65). -/
def cmdWord (op a : Byte) (b : BitVec 16) (v : Word) : CmdWord := op ++ a ++ b ++ v

/-- The opcode of a command (R66). -/
def opcode : Instr → Byte
  | .nop => 0x00
  | .setp _ _ => 0x01
  | .getp _ => 0x02
  | .note _ _ _ => 0x03
  | .blk => 0x04
  | .tick => 0x05

/-- The field `b` of a `NOTE`: `b[0]` is the gate, `b[15:1]` zero (R67). -/
def gateField (gate : Bool) : BitVec 16 := if gate then 1 else 0

/-- The encoder: the word of a command, every unused field 0 (R66, R67, R73). -/
def encode (i : Instr) : CmdWord :=
  match i with
  | .nop => cmdWord (opcode i) 0 0 0
  | .setp a v => cmdWord (opcode i) a 0 v
  | .getp a => cmdWord (opcode i) a 0 0
  | .note a gate v => cmdWord (opcode i) a (gateField gate) v
  | .blk => cmdWord (opcode i) 0 0 0
  | .tick => cmdWord (opcode i) 0 0 0

/-- A word whose opcode is one of the six and whose unused fields hold the zeros software should write (R67):
the words `encode` gives. -/
def canonical (w : CmdWord) : Bool :=
  match decode w with
  | .command i => decide (encode i = w)
  | .reservedOpcode _ => false

/-- The expansions of the pseudo-commands into commands (R73). -/
def Pseudo.expand : Pseudo → List Instr
  | .render n => .blk :: List.replicate n .tick
  | .noteOn pitch vel => [.note pitch true vel]
  | .noteOff pitch => [.note pitch false 0]

/-- The 8 bytes of a command word as a transport carries them, most significant byte first (20_memory.md R52; the
transport is outside the block, log 13). -/
def transportBytes (w : CmdWord) : List Byte :=
  [w.extractLsb' 56 8, w.extractLsb' 48 8, w.extractLsb' 40 8, w.extractLsb' 32 8] ++
  [w.extractLsb' 24 8, w.extractLsb' 16 8, w.extractLsb' 8 8, w.extractLsb' 0 8]

/-- A command word from the bytes of a transport, most significant first, with the bytes after it; fewer than eight
bytes are no transfer. -/
def wordOfTransport : List Byte → Option (CmdWord × List Byte)
  | b7 :: b6 :: b5 :: b4 :: b3 :: b2 :: b1 :: b0 :: rest =>
    some (b7 ++ b6 ++ b5 ++ b4 ++ b3 ++ b2 ++ b1 ++ b0, rest)
  | _ => none

/-- The command word whose low `nbits` bits are those of `w` and whose other bits are 0. The block's only
instruction length is one 64-bit word (R72), numbered from bit 0 as R65 numbers it. -/
def tableWord (nbits w : Nat) : CmdWord := BitVec.ofNat 64 (w % 2 ^ nbits)

/-- The command the decoder reads from a word of the opcode table; none where the opcode is reserved. -/
def decodeTableWord (nbits w : Nat) : Option Instr :=
  match decode (tableWord nbits w) with
  | .command i => some i
  | .reservedOpcode _ => none

end Sys2Proof
end

