-- ==== Sys2Proof/Config.lean ====
section
/-! DEFINITION. What an instance of the hardware fixes at construction: the configuration record `Cfg` of
00_scope.md R6 and the reference configuration REFCFG. The block has no other open value: 93_implementation_defined.md
says it has no undefined behaviour, so no opaque constant stands here. -/

namespace Sys2Proof

/-- The parameters of one envelope generator (R6): three durations in samples, the sustain level and the
post-gain, both `fix`. -/
structure EgCfg where
  na : Nat
  nd : Nat
  sus : Int
  nr : Nat
  pg : Int
deriving DecidableEq, Repr

/-- The waveform and sharpness of one LFO (R6). The type `Waveform` holds exactly the legal values 0 .. 7. -/
structure LfoCfg where
  type : Waveform
  sharp : Int
deriving DecidableEq, Repr

/-- The configuration record of R6: sample rate, both envelopes, both LFO shapes, lower cutoff clamp in Hz. -/
structure Cfg where
  fs : Nat
  ega : EgCfg
  egf : EgCfg
  lfoT : LfoCfg
  lfoV : LfoCfg
  cutMinHz : Nat
deriving DecidableEq, Repr

/-- REFCFG, the column of R6 every derived test vector of the spec uses. -/
def Cfg.ref : Cfg :=
  { fs := 48000
    ega := { na := 480, nd := 4800, sus := 8388608, nr := 9600, pg := 16777216 }
    egf := { na := 240, nd := 2400, sus := 4194304, nr := 4800, pg := 16777216 }
    lfoT := { type := .triangle, sharp := 16777216 }
    lfoV := { type := .modulatedSine, sharp := 0 }
    cutMinHz := 20 }

end Sys2Proof
end

