-- ==== Sys2Proof/Machine/Fix.lean ====
section
/-! DEFINITION. The arithmetic primitives of 00_scope.md R13, total functions on unbounded integers (R12).
`/` on `Int` with a positive divisor is the floor division `//` of R12, and `x / 2^n` its shift `x >> n`. -/

namespace Sys2Proof.Machine

/-- `ONE = 2^24`, 1.0 in `fix` (R9, R10). -/
abbrev ONE : Int := 16777216

/-- `s32(w)`: the signed value of a 32-bit word (R13). -/
def s32 (w : Word) : Int := w.toInt

/-- `u32(x)`: the 32-bit word of a signed integer, `x & (2^32 - 1)` (R13). -/
def u32 (x : Int) : Word := BitVec.ofInt 32 x

/-- `sat32(x)` (R13). -/
def sat32 (x : Int) : Int := min 2147483647 (max (-2147483648) x)

/-- `fmul(a, b) = sat32((a * b) >> 24)`: the fix product, floored and saturated (R13). -/
def fmul (a b : Int) : Int := sat32 (a * b / 16777216)

/-- `clamp(x, lo, hi)`, for `lo <= hi` (R13). -/
def clamp (x lo hi : Int) : Int := if x < lo then lo else if hi < x then hi else x

/-- `rnd(num / den)` for `den > 0`: to nearest, ties toward plus infinity (R13). -/
def rnd (num den : Int) : Int := (2 * num + den) / (2 * den)

/-- `lerp(a, b, t) = a + fmul(t, b - a)`: the linear crossfade (R13). -/
def lerp (a b t : Int) : Int := a + fmul t (b - a)

/-- A duration of `num / den` seconds as a sample count, `max(1, rnd(T * FS))` (R7). -/
def samplesOfSeconds (num den fs : Nat) : Nat := max 1 (rnd (num * fs) den).toNat

end Sys2Proof.Machine
end

