-- ==== Sys2Proof/Machine/Constants.lean ====
section
/-! DEFINITION. The fixed constants of 00_scope.md R9, the constants derived from `FS` of R8, and the two
normative tables: `SIN_T` (43_oscillator.md R150) and `DET30` (R171). -/

namespace Sys2Proof.Machine

/-- `MOD_DEPTH = ONE/2` (R9). -/
abbrev MOD_DEPTH : Int := 8388608

/-- `VIB_DEPTH = ONE/64` (R9). -/
abbrev VIB_DEPTH : Int := 262144

/-- `C427 = rnd(4/27 * 2^24)` (R9). -/
abbrev C427 : Int := 2485513

/-- `PAN_GAIN = rnd(2^24 / sqrt 2)` (R9). -/
abbrev PAN_GAIN : Int := 11863283

/-- `CUT_MAX_INC = 2^30 - 1` (R9). -/
abbrev CUT_MAX_INC : Int := 1073741823

/-- `SEED[0]`, the reset value of OSC1's generator (R9). -/
def seedOsc1 : Word := 0x13579BDF

/-- `SEED[1]`, OSC2 (R9). -/
def seedOsc2 : Word := 0x2468ACE1

/-- `SEED[2]`, OSC3 (R9). -/
def seedOsc3 : Word := 0x0F1E2D3C

/-- `SEED[3]`, LFOT (R9). -/
def seedLfoT : Word := 0x9E3779B9

/-- `SEED[4]`, LFOV (R9). -/
def seedLfoV : Word := 0x7F4A7C15

/-- `K20K_INC = rnd(20000 * 2^32 / FS)`, not truncated (R8). -/
def k20kInc (c : Cfg) : Int := rnd (20000 * 4294967296) c.fs

/-- `CUT_MIN_INC = rnd(CUT_MIN_HZ * 2^32 / FS)`, not truncated (R8). -/
def cutMinInc (c : Cfg) : Int := rnd (c.cutMinHz * 4294967296) c.fs

/-- The 65 entries of the quarter-wave sine table, in rows as R150 prints them. -/
def sinTable : List Nat :=
  [0, 411733, 823219, 1234209, 1644455, 2053710, 2461729, 2868265] ++
  [3273072, 3675909, 4076531, 4474698, 4870169, 5262706, 5652074, 6038037] ++
  [6420363, 6798821, 7173184, 7543226, 7908725, 8269459, 8625213, 8975771] ++
  [9320922, 9660458, 9994176, 10321873, 10643353, 10958422, 11266890, 11568571] ++
  [11863283, 12150850, 12431097, 12703856, 12968963, 13226258, 13475586, 13716797] ++
  [13949745, 14174291, 14390298, 14597637, 14796184, 14985817, 15166424, 15337895] ++
  [15500126, 15653022, 15796488, 15930439, 16054795, 16169479, 16274424, 16369565] ++
  [16454846, 16530216, 16595628, 16651044, 16696429, 16731757, 16757007, 16772163] ++
  [16777216]

/-- `SIN_T[i]` for `i` in 0 .. 64 (R150). -/
def sinT (i : Nat) : Int := (sinTable[i]?.getD 0 : Nat)

/-- The 25 entries of the semitone ratio table from `d = -12` to `d = 12` (R171). -/
def det30Table : List Nat :=
  [536870912, 568794918, 602617224, 638450708, 676414963, 716636690] ++
  [759250125, 804397487, 852229450, 902905651, 956595215, 1013477326] ++
  [1073741824, 1137589835, 1205234447, 1276901417, 1352829926, 1433273380] ++
  [1518500250, 1608794974, 1704458901, 1805811301, 1913190429, 2026954652] ++
  [2147483648]

/-- `DET30[d]` for `d` in -12 .. 12 (R171). Outside that range the spec defines no entry and no register
reaches one: 0 there is a placeholder (DESIGN CHOICE, log 11). -/
def det30 (d : Int) : Int :=
  if -12 ≤ d then (det30Table[(d + 12).toNat]?.getD 0 : Nat) else 0

end Sys2Proof.Machine
end

