-- ==== Sys2Proof/Machine/NoteSource.lean ====
section
/-! DEFINITION. The arithmetic of NoteSource: from a note number to a phase increment (40_commands.md R89, R90). -/

namespace Sys2Proof.Machine

/-- `NoteInc(n)` for `n` in 0 .. 127 at sample rate `fs` (R90): the increment nearest to
`440 * 2^((n-69)/12)` Hz, modulo `2^32`. `o` is the octave and `k` the semitone above the A of that octave. -/
def noteIncAt (fs n : Nat) : Word :=
  let o : Int := ((n : Int) - 69) / 12
  let k : Int := ((n : Int) - 69) - 12 * o
  let r := det30 k
  if 0 ≤ o + 2 then
    u32 (rnd (440 * r * (2 ^ (o + 2).toNat : Nat)) fs)
  else
    u32 (rnd (440 * r) (fs * (2 ^ (-(o + 2)).toNat : Nat)))

/-- The note table of an instance (R8, R90). -/
def noteIncOf (c : Cfg) (pitch : Fin 128) : Word := noteIncAt c.fs pitch.val

end Sys2Proof.Machine
end

