-- ==== Sys2Proof/Machine/Params.lean ====
section
/-! DEFINITION. The parameter registers of 10_state.md R20: the 23 names with their addresses and legal ranges, a
register file of them, and the clamp of R22. One file of this type holds the pending registers `P`, another the
active registers `A` (R21). -/

namespace Sys2Proof.Machine

/-- The 23 names of the control surface, in the order of their ids (R20). -/
inductive Param where
  | type1 | sharp1 | mul1
  | type2 | sharp2 | mul2 | interval2 | range2
  | switch3 | type3 | sharp3 | mul3 | interval3 | range3
  | cutoffFact | res
  | voiceSel | mulWhiteNoise | mulPinkNoise
  | lfotremolo | selectorAdsrtremolo | lfovibrato | selectorAdsrvibrato
deriving DecidableEq, Repr

/-- The names in the order of their ids, so that the position is the address (R20, R50). -/
def Param.all : List Param :=
  [.type1, .sharp1, .mul1, .type2, .sharp2, .mul2, .interval2, .range2] ++
  [.switch3, .type3, .sharp3, .mul3, .interval3, .range3, .cutoffFact, .res] ++
  [.voiceSel, .mulWhiteNoise, .mulPinkNoise, .lfotremolo, .selectorAdsrtremolo, .lfovibrato, .selectorAdsrvibrato]

/-- The register at a parameter address: ids 0 .. 22; nothing at 23 .. 255 (20_memory.md R50, R55). -/
def Param.ofAddr (a : Byte) : Option Param := Param.all[a.toNat]?

/-- The lower bound of a register's legal range (R20). -/
def Param.lo : Param → Int
  | .interval2 | .interval3 => -8
  | .range2 | .range3 => 1
  | .type1 | .sharp1 | .mul1 | .type2 | .sharp2 | .mul2 | .switch3 | .type3 | .sharp3 | .mul3 => 0
  | .cutoffFact | .res | .voiceSel | .mulWhiteNoise | .mulPinkNoise => 0
  | .lfotremolo | .selectorAdsrtremolo | .lfovibrato | .selectorAdsrvibrato => 0

/-- The upper bound of a register's legal range (R20). -/
def Param.hi : Param → Int
  | .type1 | .type2 | .type3 => 7
  | .interval2 | .interval3 => 8
  | .range2 | .range3 => 6
  | .switch3 | .voiceSel => 1
  | .sharp1 | .mul1 | .sharp2 | .mul2 | .sharp3 | .mul3 => ONE
  | .cutoffFact | .res | .mulWhiteNoise | .mulPinkNoise | .selectorAdsrtremolo => ONE
  | .lfotremolo | .lfovibrato => 2147483647
  | .selectorAdsrvibrato => 2 * ONE

/-- `clampP(i, v)` (R22). -/
def Param.clampP (p : Param) (v : Int) : Int := clamp v p.lo p.hi

/-- The spelling of a register's name in command texts (30_encoding.md R73). -/
def Param.name : Param → String
  | .type1 => "type1"
  | .sharp1 => "sharp1"
  | .mul1 => "mul1"
  | .type2 => "type2"
  | .sharp2 => "sharp2"
  | .mul2 => "mul2"
  | .interval2 => "interval2"
  | .range2 => "range2"
  | .switch3 => "switch3"
  | .type3 => "type3"
  | .sharp3 => "sharp3"
  | .mul3 => "mul3"
  | .interval3 => "interval3"
  | .range3 => "range3"
  | .cutoffFact => "cutoffFact"
  | .res => "res"
  | .voiceSel => "voiceSel"
  | .mulWhiteNoise => "mulWhiteNoise"
  | .mulPinkNoise => "mulPinkNoise"
  | .lfotremolo => "lfotremolo"
  | .selectorAdsrtremolo => "selector_adsrtremolo"
  | .lfovibrato => "lfovibrato"
  | .selectorAdsrvibrato => "selector_adsrvibrato"

/-- A file of the 23 registers, one 32-bit word each (R20, R21). -/
structure Params where
  type1 : Word
  sharp1 : Word
  mul1 : Word
  type2 : Word
  sharp2 : Word
  mul2 : Word
  interval2 : Word
  range2 : Word
  switch3 : Word
  type3 : Word
  sharp3 : Word
  mul3 : Word
  interval3 : Word
  range3 : Word
  cutoffFact : Word
  res : Word
  voiceSel : Word
  mulWhiteNoise : Word
  mulPinkNoise : Word
  lfotremolo : Word
  selectorAdsrtremolo : Word
  lfovibrato : Word
  selectorAdsrvibrato : Word
deriving DecidableEq, Repr

/-- The register of a file by its name. -/
def Params.get (f : Params) : Param → Word
  | .type1 => f.type1
  | .sharp1 => f.sharp1
  | .mul1 => f.mul1
  | .type2 => f.type2
  | .sharp2 => f.sharp2
  | .mul2 => f.mul2
  | .interval2 => f.interval2
  | .range2 => f.range2
  | .switch3 => f.switch3
  | .type3 => f.type3
  | .sharp3 => f.sharp3
  | .mul3 => f.mul3
  | .interval3 => f.interval3
  | .range3 => f.range3
  | .cutoffFact => f.cutoffFact
  | .res => f.res
  | .voiceSel => f.voiceSel
  | .mulWhiteNoise => f.mulWhiteNoise
  | .mulPinkNoise => f.mulPinkNoise
  | .lfotremolo => f.lfotremolo
  | .selectorAdsrtremolo => f.selectorAdsrtremolo
  | .lfovibrato => f.lfovibrato
  | .selectorAdsrvibrato => f.selectorAdsrvibrato

/-- The file with one register written. -/
def Params.set (f : Params) (p : Param) (w : Word) : Params :=
  match p with
  | .type1 => { f with type1 := w }
  | .sharp1 => { f with sharp1 := w }
  | .mul1 => { f with mul1 := w }
  | .type2 => { f with type2 := w }
  | .sharp2 => { f with sharp2 := w }
  | .mul2 => { f with mul2 := w }
  | .interval2 => { f with interval2 := w }
  | .range2 => { f with range2 := w }
  | .switch3 => { f with switch3 := w }
  | .type3 => { f with type3 := w }
  | .sharp3 => { f with sharp3 := w }
  | .mul3 => { f with mul3 := w }
  | .interval3 => { f with interval3 := w }
  | .range3 => { f with range3 := w }
  | .cutoffFact => { f with cutoffFact := w }
  | .res => { f with res := w }
  | .voiceSel => { f with voiceSel := w }
  | .mulWhiteNoise => { f with mulWhiteNoise := w }
  | .mulPinkNoise => { f with mulPinkNoise := w }
  | .lfotremolo => { f with lfotremolo := w }
  | .selectorAdsrtremolo => { f with selectorAdsrtremolo := w }
  | .lfovibrato => { f with lfovibrato := w }
  | .selectorAdsrvibrato => { f with selectorAdsrvibrato := w }

/-- The reset content of one register, `clampP(i, 0)` (70_reset_and_hazards.md R226). -/
def Param.resetWord (p : Param) : Word := u32 (p.clampP 0)

/-- A register file after reset (R226). -/
def Params.reset : Params :=
  { type1 := Param.type1.resetWord
    sharp1 := Param.sharp1.resetWord
    mul1 := Param.mul1.resetWord
    type2 := Param.type2.resetWord
    sharp2 := Param.sharp2.resetWord
    mul2 := Param.mul2.resetWord
    interval2 := Param.interval2.resetWord
    range2 := Param.range2.resetWord
    switch3 := Param.switch3.resetWord
    type3 := Param.type3.resetWord
    sharp3 := Param.sharp3.resetWord
    mul3 := Param.mul3.resetWord
    interval3 := Param.interval3.resetWord
    range3 := Param.range3.resetWord
    cutoffFact := Param.cutoffFact.resetWord
    res := Param.res.resetWord
    voiceSel := Param.voiceSel.resetWord
    mulWhiteNoise := Param.mulWhiteNoise.resetWord
    mulPinkNoise := Param.mulPinkNoise.resetWord
    lfotremolo := Param.lfotremolo.resetWord
    selectorAdsrtremolo := Param.selectorAdsrtremolo.resetWord
    lfovibrato := Param.lfovibrato.resetWord
    selectorAdsrvibrato := Param.selectorAdsrvibrato.resetWord }

end Sys2Proof.Machine
end

