-- ==== Sys2Proof/Machine/State.lean ====
section
/-! DEFINITION. The state of the block, all of 10_state.md R20 to R29, with the ports of R30 as lists of what the host
has yet to deliver and of what the block has sent, and the configuration of the instance; the state after reset
(70_reset_and_hazards.md R226); why a step can stop. -/

namespace Sys2Proof.Machine

/-- The pending note latch (R24). -/
structure NoteLatch where
  pitch : Fin 128
  vel : Word
  gate : Bool
  trig : Bool
  ev : Bool
deriving DecidableEq, Repr

/-- The active note (R25). -/
structure ActiveNote where
  pitch : Fin 128
  vel : Word
  gate : Bool
  noteInc : Word
deriving DecidableEq, Repr

/-- The five stages of an envelope; the codes 5, 6, 7 never occur (R27). -/
inductive Stage where
  | idle
  | attack
  | decay
  | sustain
  | release
deriving DecidableEq, Repr

/-- The state of one envelope generator (R26). -/
structure Envelope where
  stage : Stage
  level : Word
  elapsed : Word
  start : Word
deriving DecidableEq, Repr

/-- The state of one generator: phase accumulator and sample-and-hold (R28). -/
structure Generator where
  phase : Word
  lfsr : Word
  shPrev : Word
  shCur : Word
deriving DecidableEq, Repr

/-- The four stage outputs of the ladder filter (R29). -/
structure Filter where
  y1 : Word
  y2 : Word
  y3 : Word
  y4 : Word
deriving DecidableEq, Repr

/-- One thing the host does at the block's input ports (R30): it transfers a command word, with the pair that stands on
`white_in`, `pink_in` at that transfer, or it applies `rst` (70_reset_and_hazards.md R225). -/
inductive Event where
  | command (w : CmdWord) (white pink : Word)
  | rst
deriving DecidableEq, Repr

/-- The whole machine. `cfg` is fixed (no step writes it); `input`, `whiteIn`, `pinkIn`, `rsp` and `out` are the ports
(logs 4 and 5). `rsp` and `out` hold the words sent, the oldest first. -/
structure State where
  /-- The configuration of the instance (00_scope.md R6; held here by DESIGN CHOICE, log 1). -/
  cfg : Cfg
  /-- The pending registers `P` (R20). -/
  pend : Params
  /-- The active registers `A` (R21). -/
  act : Params
  /-- The pending note latch (R24). -/
  latch : NoteLatch
  /-- The active note (R25). -/
  note : ActiveNote
  /-- The amplitude envelope `EGA` (R26). -/
  ega : Envelope
  /-- The filter envelope `EGF` (R26). -/
  egf : Envelope
  /-- Generator 0 (R28). -/
  osc1 : Generator
  /-- Generator 1 (R28). -/
  osc2 : Generator
  /-- Generator 2 (R28). -/
  osc3 : Generator
  /-- Generator 3 (R28). -/
  lfoT : Generator
  /-- Generator 4 (R28). -/
  lfoV : Generator
  /-- The ladder filter (R29). -/
  filter : Filter
  /-- What the host has yet to deliver, in order (R30, R56; log 4). -/
  input : List Event
  /-- The word on `white_in` at the last `TICK` (R30, R180; log 5). -/
  whiteIn : Word
  /-- The word on `pink_in` at the last `TICK` (R30, R180; log 5). -/
  pinkIn : Word
  /-- The words sent on `rsp` (R30; log 4). -/
  rsp : List Word
  /-- The pairs sent on `out_l`, `out_r` (R30; log 4). -/
  out : List (Word × Word)
deriving DecidableEq, Repr

/-- Why a step faults: never. The block raises no exception, takes no trap and reports no error (60_exceptions.md
R205, R211; 93_implementation_defined.md: a model needs no fault and no stuck outcome), so there is no reason. -/
inductive Fault where
deriving DecidableEq, Repr

/-- Why a step is refused. -/
inductive Refusal where
  /-- Raised by an arm of `exec` for a command that has no meaning yet; safe. No arm raises it now. -/
  | notModelled (mnemonic : String)
  /-- Raised by `step` in a state whose configuration is outside the legal ranges: such hardware does not exist
  (93_implementation_defined.md U16). Safe: it takes no behaviour from any legal instance (log 2). -/
  | illegalConfiguration
deriving DecidableEq, Repr

/-- An envelope after reset (R226). -/
def Envelope.reset : Envelope := { stage := .idle, level := 0, elapsed := 0, start := 0 }

/-- A generator after reset (R226). -/
def Generator.reset (seed : Word) : Generator := { phase := 0, lfsr := seed, shPrev := 0, shCur := 0 }

/-- The state after reset of the instance with configuration `c` (R226). -/
def State.resetWith (c : Cfg) : State :=
  { cfg := c
    pend := Params.reset
    act := Params.reset
    latch := { pitch := 0, vel := 0, gate := false, trig := false, ev := false }
    note := { pitch := 0, vel := 0, gate := false, noteInc := noteIncOf c 0 }
    ega := Envelope.reset
    egf := Envelope.reset
    osc1 := Generator.reset seedOsc1
    osc2 := Generator.reset seedOsc2
    osc3 := Generator.reset seedOsc3
    lfoT := Generator.reset seedLfoT
    lfoV := Generator.reset seedLfoV
    filter := { y1 := 0, y2 := 0, y3 := 0, y4 := 0 }
    input := []
    whiteIn := 0
    pinkIn := 0
    rsp := []
    out := [] }

/-- The machine right after reset, at the reference configuration (R226 at REFCFG; log 1). -/
def State.reset : State := State.resetWith Cfg.ref

end Sys2Proof.Machine
end

