-- ==== Sys2Proof/Machine/Operands.lean ====
section
/-! DEFINITION. How the operands of a command are formed from its fields (30_encoding.md R68). -/

namespace Sys2Proof.Machine

/-- The value of a `SETP` to register `p`: the word read signed, then clamped (R68 a). -/
def setpValue (p : Param) (v : Word) : Int := p.clampP (s32 v)

/-- `pitchv = clamp(a, 0, 127)` of a `NOTE` (R68 b). -/
def notePitch (a : Byte) : Fin 128 := ⟨min a.toNat 127, by omega⟩

/-- `velv = clamp(s32(v), 0, ONE)` of a `NOTE` (R68 c). -/
def noteVel (v : Word) : Int := clamp (s32 v) 0 ONE

/-- A noise input of a `TICK`: the word read signed and clamped to `-ONE .. ONE` (44_filter_output.md R180). -/
def noiseSample (w : Word) : Int := clamp (s32 w) (-ONE) ONE

end Sys2Proof.Machine
end

