-- ==== Sys2Proof/Machine/Flags.lean ====
section
/-! DEFINITION. The block has no condition codes: no command computes a flag and none tests one (10_state.md R34). The
single-bit state that commands set and clear is that of the note latch (R24): the gate and the two event bits. -/

namespace Sys2Proof.Machine

/-- What a `NOTE` writes into the latch: the last pitch, velocity and gate win, `np_trig` remembers a note-on, `np_ev`
any event (40_commands.md R88). -/
def NoteLatch.record (l : NoteLatch) (a : Byte) (gate : Bool) (v : Word) : NoteLatch :=
  { pitch := notePitch a, vel := u32 (noteVel v), gate := gate, trig := gate || l.trig, ev := true }

/-- What `BLK` leaves of a latch it has taken over: the event bits are cleared, the rest is kept (R91). -/
def NoteLatch.cleared (l : NoteLatch) : NoteLatch := { l with trig := false, ev := false }

end Sys2Proof.Machine
end

