-- ==== Sys2Proof/WellFormed.lean ====
section
/-! DEFINITION. Which configurations exist: the legal ranges of 00_scope.md R6 and the illegal configurations of
93_implementation_defined.md U16. Commands need no such check: every term of `Instr` is one the block executes,
since each operand has exactly its field's width and every value of every field has a meaning (30_encoding.md R68, R70). -/

namespace Sys2Proof

/-- A `fix` parameter of R6 lies in `0 .. ONE`. -/
def unitRange (x : Int) : Bool := decide (0 ≤ x) && decide (x ≤ Machine.ONE)

/-- A duration of R6 lies in `1 .. 2^32 - 1`. -/
def durationRange (n : Nat) : Bool := decide (1 ≤ n) && decide (n ≤ 4294967295)

/-- The legal ranges of one envelope's parameters (R6). -/
def EgCfg.wf (c : EgCfg) : Bool :=
  durationRange c.na && durationRange c.nd && durationRange c.nr && unitRange c.sus && unitRange c.pg

/-- The legal configurations (R6, U16). `FS = 80` with the cutoff floor 20 Hz passes R6's range and fails
`CUT_MIN_INC <= CUT_MAX_INC`; it is refused as R191 and U16 say (DEDUCED, safe, log 3). -/
def Cfg.wf (c : Cfg) : Bool :=
  decide (80 ≤ c.fs) && c.ega.wf && c.egf.wf && unitRange c.lfoT.sharp && unitRange c.lfoV.sharp &&
    decide (Machine.cutMinInc c ≤ Machine.CUT_MAX_INC)

end Sys2Proof
end

