-- ==== Sys2Proof/Machine/Ops.lean ====
section
/-! DEFINITION. The named operations on the state that the commands share: the parameter space (20_memory.md R50), the
output ports (10_state.md R30), reset (70_reset_and_hazards.md R225) and taking the next command from the host.
There is no operation for taking an exception or returning from one: the block has none (60_exceptions.md R211). -/

namespace Sys2Proof.Machine

/-- `MemRead(addr, 4)`: the pending register at an address, the word 0 where there is none (R50, R55). -/
def State.paramRead (s : State) (a : Byte) : Word :=
  match Param.ofAddr a with
  | some p => s.pend.get p
  | none => 0

/-- `MemWrite(addr, 4, v)`: the clamped store, ignored where there is no register (R50, R55, 10_state.md R22). -/
def State.paramWrite (s : State) (a : Byte) (v : Word) : State :=
  match Param.ofAddr a with
  | some p => { s with pend := s.pend.set p (u32 (setpValue p v)) }
  | none => s

/-- One word sent on `rsp` (R30). -/
def State.respond (s : State) (w : Word) : State := { s with rsp := s.rsp ++ [w] }

/-- One pair sent on `out_l`, `out_r` (R30). -/
def State.emit (s : State) (l r : Word) : State := { s with out := s.out ++ [(l, r)] }

/-- What `rst` does (R225, R226): every item of state to its reset value, the configuration unchanged. What the host has
yet to deliver and what it has already taken are outside the block and stay (DEDUCED, log 6). -/
def State.applyReset (s : State) : State :=
  { State.resetWith s.cfg with input := s.input, rsp := s.rsp, out := s.out }

/-- The sample ports are read by a `TICK` alone: it takes the pair presented with it (R30, R180, R236). -/
def State.takeSamples (s : State) (i : Instr) (white pink : Word) : State :=
  match i with
  | .tick => { s with whiteIn := white, pinkIn := pink }
  | .nop | .setp _ _ | .getp _ | .note _ _ _ | .blk => s

/-- What the block finds at its input ports, with the state after it has taken it. -/
inductive Fetched where
  /-- Nothing has been delivered (60_exceptions.md R217). -/
  | idle
  /-- `rst` is applied. -/
  | rst (t : State)
  /-- A word with a reserved opcode (30_encoding.md R70 a). -/
  | reserved (t : State)
  /-- A command. -/
  | command (i : Instr) (t : State)

/-- Takes the next event from the host (R30, R56). -/
def State.fetch (s : State) : Fetched :=
  match s.input with
  | [] => .idle
  | .rst :: rest => .rst { s with input := rest }
  | .command w white pink :: rest =>
    match decode w with
    | .command i => .command i (({ s with input := rest } : State).takeSamples i white pink)
    | .reservedOpcode _ => .reserved { s with input := rest }

/-- The state with one more command placed before everything else the host has yet to deliver; zeros stand on the
sample ports. -/
def State.place (s : State) (w : CmdWord) : State := { s with input := .command w 0 0 :: s.input }

end Sys2Proof.Machine
end

