-- ==== Sys2Proof/Machine/ControlPath.lean ====
section
/-! DEFINITION. The meanings of the commands of the control path: `NOP`, `SETP`, `GETP`, `NOTE` (40_commands.md R85 to
R88). -/

namespace Sys2Proof.Machine

/-- `NOP`: no state is read or written (R85). -/
def execNop (s : State) : Host.Outcome State Fault Refusal := .next s

/-- `SETP a, v`: the clamped store to a pending register; nothing at an unimplemented address (R86). -/
def execSetp (a : Byte) (v : Word) (s : State) : Host.Outcome State Fault Refusal := .next (s.paramWrite a v)

/-- `GETP a`: one word on `rsp`, the pending register or 0; no state is written (R87). -/
def execGetp (a : Byte) (s : State) : Host.Outcome State Fault Refusal := .next (s.respond (s.paramRead a))

/-- `NOTE a, b[0], v`: the note latch and nothing else (R88). -/
def execNote (a : Byte) (gate : Bool) (v : Word) (s : State) : Host.Outcome State Fault Refusal :=
  .next { s with latch := s.latch.record a gate v }

end Sys2Proof.Machine
end

