-- ==== Sys2Proof/Machine/Envelope.lean ====
section
/-! DEFINITION. The ADSR envelope generators: the gate transitions `BLK` performs and the tick (41_envelope.md R110 to
R118). -/

namespace Sys2Proof.Machine

/-- Entry into a stage from the current level: `start` takes the level, `elapsed` is 0, the level stays (R110, R111). -/
def Envelope.enter (e : Envelope) (st : Stage) : Envelope :=
  { stage := st, level := e.level, elapsed := 0, start := e.level }

/-- `GateOn(E)` (R110). -/
def Envelope.gateOn (e : Envelope) : Envelope := e.enter .attack

/-- `GateOff(E)`: from Attack, Decay or Sustain into Release; Idle and Release go on (R111). -/
def Envelope.gateOff (e : Envelope) : Envelope :=
  match e.stage with
  | .attack | .decay | .sustain => e.enter .release
  | .idle | .release => e

/-- The rising law `start + ((target - start) * e) // n` (R112). -/
def rising (start target : Int) (e n : Nat) : Int := start + ((target - start) * e) / n

/-- The falling law `start - ((start - target) * e) // n` (R112). -/
def falling (start target : Int) (e n : Nat) : Int := start - ((start - target) * e) / n

/-- The end of a stage: the level is the target, which is also the next stage's start (R114, R115, R117). -/
def Envelope.arrive (st : Stage) (level : Int) : Envelope :=
  { stage := st, level := u32 level, elapsed := 0, start := u32 level }

/-- A tick in stage Attack (R114). -/
def attackTick (c : EgCfg) (e : Envelope) : Envelope :=
  let n := e.elapsed.toNat + 1
  if c.na ≤ n then Envelope.arrive .decay ONE
  else { e with elapsed := BitVec.ofNat 32 n, level := u32 (rising (s32 e.start) ONE n c.na) }

/-- A tick in stage Decay (R115). -/
def decayTick (c : EgCfg) (e : Envelope) : Envelope :=
  let n := e.elapsed.toNat + 1
  if c.nd ≤ n then Envelope.arrive .sustain c.sus
  else { e with elapsed := BitVec.ofNat 32 n, level := u32 (falling (s32 e.start) c.sus n c.nd) }

/-- A tick in stage Release (R117). -/
def releaseTick (c : EgCfg) (e : Envelope) : Envelope :=
  let n := e.elapsed.toNat + 1
  if c.nr ≤ n then Envelope.arrive .idle 0
  else { e with elapsed := BitVec.ofNat 32 n, level := u32 (falling (s32 e.start) 0 n c.nr) }

/-- The state part of `EgTick(E)`: the one rule that matches the stage at the start of the tick (R113 to R118). -/
def egTick (c : EgCfg) (e : Envelope) : Envelope :=
  match e.stage with
  | .idle => { e with level := 0 }
  | .attack => attackTick c e
  | .decay => decayTick c e
  | .sustain => { e with level := u32 c.sus }
  | .release => releaseTick c e

/-- The value `EgTick(E)` returns, `fmul(level, PG)` of the updated level (R118). -/
def egOut (c : EgCfg) (e : Envelope) : Int := fmul (s32 (egTick c e).level) c.pg

end Sys2Proof.Machine
end

