-- ==== Sys2Proof/Machine/Generator.lean ====
section
/-! DEFINITION. The sine, the pseudo-random source, the eight waveforms and the phase accumulator shared by the
oscillators and the LFOs (43_oscillator.md R150 to R167). -/

namespace Sys2Proof.Machine

/-- The first quarter of the sine at `r` in `0 .. 2^30`: linear interpolation in `SIN_T` (R151). -/
def sinQuarter (r : Nat) : Int :=
  let idx := r / 16777216
  let frac := r % 16777216
  if idx = 64 then sinT 64
  else sinT idx + ((sinT (idx + 1) - sinT idx) * frac) / 16777216

/-- `SinQ(p)` (R151). -/
def sinQ (p : Word) : Int :=
  let q := p.toNat / 1073741824
  let r := p.toNat % 1073741824
  let v := sinQuarter (if q % 2 = 1 then 1073741824 - r else r)
  if 2 ≤ q then -v else v

/-- `XorShift32(x)`, shifts 13, 17, 5 (R153). -/
def xorShift32 (x : Word) : Word :=
  let x1 := x ^^^ (x <<< 13)
  let x2 := x1 ^^^ (x1 >>> 17)
  x2 ^^^ (x2 <<< 5)

/-- `phi = p >> 8`, the fraction of the cycle as a `fix` (R154). -/
def phi (p : Word) : Int := (p.toNat / 256 : Nat)

/-- The target shape of Square (R159). -/
def squareShape (p : Word) : Int := if p.toNat < 2147483648 then ONE else -ONE

/-- The target shape of Triangle (R160). -/
def triangleShape (f : Int) : Int :=
  if f < 4194304 then 4 * f
  else if f < 3 * 4194304 then 2 * ONE - 4 * f
  else 4 * f - 4 * ONE

/-- The target shape of Pulse (R161). -/
def pulseShape (f : Int) : Int := if 3 * 1048576 ≤ f ∧ f < 5 * 1048576 then ONE else 0

/-- The target shape of BipolarPulse (R162). -/
def bipolarShape (f : Int) : Int :=
  if 3 * 1048576 ≤ f ∧ f < 5 * 1048576 then ONE
  else if 11 * 1048576 ≤ f ∧ f < 13 * 1048576 then -ONE
  else 0

/-- The base of SampleHold: the ramp from the previous cycle's value to the current one (R166). -/
def sampleRamp (g : Generator) : Int :=
  s32 g.shPrev + fmul (phi g.phase) (s32 g.shCur - s32 g.shPrev)

/-- The phase deviation of ModulatedSine, a `fix` in cycles (R167). -/
def sineDeviation (sharp : Int) (p : Word) : Int := fmul (fmul sharp MOD_DEPTH) (sinQ p)

/-- `Wave(type, sharp, G)` (R156 to R162, R166, R167). -/
def wave (type : Waveform) (sharp : Int) (g : Generator) : Int :=
  match type with
  | .sawUp => lerp (-sinQ g.phase) (2 * phi g.phase - ONE) sharp
  | .sawDown => lerp (sinQ g.phase) (ONE - 2 * phi g.phase) sharp
  | .square => lerp (sinQ g.phase) (squareShape g.phase) sharp
  | .triangle => lerp (sinQ g.phase) (triangleShape (phi g.phase)) sharp
  | .pulse => lerp (sinQ g.phase) (pulseShape (phi g.phase)) sharp
  | .bipolarPulse => lerp (sinQ g.phase) (bipolarShape (phi g.phase)) sharp
  | .sampleHold => lerp (sampleRamp g) (s32 g.shCur) sharp
  | .modulatedSine => sinQ (u32 (g.phase.toNat + sineDeviation sharp g.phase * 256))

/-- The waveform a `type` register holds (R155). A register is always in 0 .. 7 (10_state.md R22); the last arm is 7 and,
in states no run reaches, everything above it (log 11). -/
def waveformOf (w : Word) : Waveform :=
  match w.toNat with
  | 0 => .sawUp
  | 1 => .sawDown
  | 2 => .square
  | 3 => .triangle
  | 4 => .pulse
  | 5 => .bipolarPulse
  | 6 => .sampleHold
  | _ => .modulatedSine

/-- `NewCycle(G)` without the phase: a new draw, the old value kept (R164). -/
def newCycle (g : Generator) : Generator :=
  { phase := g.phase
    lfsr := xorShift32 g.lfsr
    shPrev := g.shCur
    shCur := u32 (((xorShift32 g.lfsr).toNat / 128 : Nat) - ONE) }

/-- `Advance(G, inc)`: the phase accumulator step, with `NewCycle` at a wrap (R163). -/
def advance (g : Generator) (inc : Word) : Generator :=
  if 4294967296 ≤ g.phase.toNat + inc.toNat then { newCycle g with phase := g.phase + inc }
  else { g with phase := g.phase + inc }

end Sys2Proof.Machine
end

