-- ==== Sys2Proof/Machine/FilterOutput.lean ====
section
/-! DEFINITION. The noise multiplexer, the cutoff law, the ladder filter and the stereo output (44_filter_output.md R180
to R197). -/

namespace Sys2Proof.Machine

/-- `NoiseMux`: a hard switch on `voiceSel`, each voice scaled by its own gain (R181). -/
def noiseMux (white pink : Word) (voiceSel whiteGain pinkGain : Int) : Int :=
  if voiceSel = 0 then fmul whiteGain (noiseSample white) else fmul pinkGain (noiseSample pink)

/-- The clamped cutoff increment `ci` (R191). -/
def cutoffInc (c : Cfg) (envF cutoffFact : Int) : Int :=
  clamp (fmul envF cutoffFact * k20kInc c / 16777216) (cutMinInc c) CUT_MAX_INC

/-- The stage coefficient `g = SinQ(ci)` (R192). -/
def cutCoef (ci : Int) : Int := sinQ (u32 ci)

/-- The feedback gain `k = res << 2` (R193). -/
def resGain (res : Int) : Int := res * 4

/-- `SoftClip` of a magnitude (R194). -/
def softClipAbs (m : Int) : Int :=
  if 25165824 ≤ m then ONE else clamp (m - fmul C427 (fmul (fmul m m) m)) 0 ONE

/-- `SoftClip(u)` (R194). -/
def softClip (u : Int) : Int := if u < 0 then -softClipAbs (-u) else softClipAbs u

/-- One pole: `y <- y + fmul(g, input - y)` (R195). -/
def poleStep (y : Word) (input g : Int) : Word := u32 (s32 y + fmul g (input - s32 y))

/-- The node after the feedback, `u = SoftClip(x - fmul(k, y[4]))` (R195). -/
def ladderInput (f : Filter) (x k : Int) : Int := softClip (x - fmul k (s32 f.y4))

/-- The four stages, each fed with the new output of the one before (R195). -/
def ladderStages (f : Filter) (u g : Int) : Filter :=
  let y1 := poleStep f.y1 u g
  let y2 := poleStep f.y2 (s32 y1) g
  let y3 := poleStep f.y3 (s32 y2) g
  let y4 := poleStep f.y4 (s32 y3) g
  { y1 := y1, y2 := y2, y3 := y3, y4 := y4 }

/-- `Ladder(x, g, k)` (R195). -/
def ladder (f : Filter) (x g k : Int) : Filter := ladderStages f (ladderInput f x k) g

/-- `Stereo(y4)`: the value of both channels (R197). -/
def stereo (y4 : Int) : Int := fmul PAN_GAIN y4

end Sys2Proof.Machine
end

