-- ==== Sys2Proof/Machine/Modulation.lean ====
section
/-! DEFINITION. The LFO rate law, the scaling of the LFO outputs and the two modulation selectors (42_lfo_modsel.md R131
to R137). -/

namespace Sys2Proof.Machine

/-- `LfoInc(rate) = (rate << 8) // FS`, taken modulo `2^32` as `Advance` takes it (R131, 43_oscillator.md R163). -/
def lfoInc (fs : Nat) (rate : Int) : Word := u32 (rate * 256 / fs)

/-- `Trem(w) = (ONE + w) >> 1` (R133). -/
def trem (w : Int) : Int := (ONE + w) / 2

/-- `Vib(w) = ONE + fmul(VIB_DEPTH, w)` (R134). -/
def vib (w : Int) : Int := ONE + fmul VIB_DEPTH w

/-- `AmpSel(envA, trem)` at position `pos` (R136). -/
def ampSel (envA tr pos : Int) : Int := lerp envA tr pos

/-- `FreqSel(envA, vib)` at position `pos` (R137). -/
def freqSel (envA vb pos : Int) : Int :=
  if pos ≤ ONE then lerp ONE envA pos else lerp envA vb (pos - ONE)

end Sys2Proof.Machine
end

