-- ==== Sys2Proof/Machine/Oscillator.lean ====
section
/-! DEFINITION. The oscillator increments and the oscillator output (43_oscillator.md R170 to R174). -/

namespace Sys2Proof.Machine

/-- `Inc1(note_inc, fm) = ((note_inc * fm) >> 24) & (2^32 - 1)` (R170). -/
def incOsc1 (noteInc : Word) (fm : Int) : Word := u32 (noteInc.toNat * fm / 16777216)

/-- `IncN(inc1, d, r) = (((inc1 * DET30[d]) >> 30) * r) & (2^32 - 1)` (R172). -/
def incN (inc1 : Word) (d r : Int) : Word := u32 ((inc1.toNat * det30 d / 1073741824) * r)

/-- The amplitude `a_n = fmul(amp, mul)` of oscillators 1 and 2 (R173). -/
def oscAmp (amp mul : Int) : Int := fmul amp mul

/-- The amplitude `a_3` of oscillator 3, 0 when it is disabled (R174). -/
def oscAmp3 (amp mul switch3 : Int) : Int := if switch3 = 1 then fmul amp mul else 0

/-- `o_n = fmul(a_n, Wave(type, sharp, G))` (R173). -/
def oscOut (a : Int) (type : Waveform) (sharp : Int) (g : Generator) : Int := fmul a (wave type sharp g)

end Sys2Proof.Machine
end

