-- ==== Sys2Proof/Machine/RenderPath.lean ====
section
/-! DEFINITION. The meanings of the commands of the render path: `BLK` (40_commands.md R91) and `TICK` (R92). The signals
of a tick are named after R92; each reads the state before the tick and the signals of earlier steps. -/

namespace Sys2Proof.Machine

/-- What `BLK` does to an envelope when a note event is pending: `GateOn` if a note-on arrived, then `GateOff` if the
last gate is 0 (R91). -/
def Envelope.takeGates (e : Envelope) (l : NoteLatch) : Envelope :=
  let e1 := if l.trig then e.gateOn else e
  if l.gate then e1 else e1.gateOff

/-- The part of `BLK` that takes over a pending note event (R91). -/
def State.takeNote (s : State) : State :=
  { s with
    note :=
      { pitch := s.latch.pitch, vel := s.latch.vel, gate := s.latch.gate, noteInc := noteIncOf s.cfg s.latch.pitch }
    ega := s.ega.takeGates s.latch
    egf := s.egf.takeGates s.latch
    latch := s.latch.cleared }

/-- The part of `BLK` that publishes all 23 registers (R91). -/
def State.publish (s : State) : State := { s with act := s.pend }

/-- The state after a block boundary (R91). -/
def State.blockBoundary (s : State) : State := if s.latch.ev then s.publish.takeNote else s.publish

/-- `BLK` (R91). -/
def execBlk (s : State) : Host.Outcome State Fault Refusal := .next s.blockBoundary

/-- Step 1: `envA`. -/
def tickEnvA (s : State) : Int := egOut s.cfg.ega s.ega

/-- Step 1: `envF`. -/
def tickEnvF (s : State) : Int := egOut s.cfg.egf s.egf

/-- Step 2: `wT`, the tremolo LFO's sample before its advance (42_lfo_modsel.md R132). -/
def tickWaveT (s : State) : Int := wave s.cfg.lfoT.type s.cfg.lfoT.sharp s.lfoT

/-- Step 2: `wV`, the vibrato LFO's sample before its advance (R132). -/
def tickWaveV (s : State) : Int := wave s.cfg.lfoV.type s.cfg.lfoV.sharp s.lfoV

/-- Step 3: `trem`. -/
def tickTrem (s : State) : Int := trem (tickWaveT s)

/-- Step 3: `vib`. -/
def tickVib (s : State) : Int := vib (tickWaveV s)

/-- Step 4: `amp`. -/
def tickAmp (s : State) : Int := ampSel (tickEnvA s) (tickTrem s) (s32 s.act.selectorAdsrtremolo)

/-- Step 4: `fm`. -/
def tickFm (s : State) : Int := freqSel (tickEnvA s) (tickVib s) (s32 s.act.selectorAdsrvibrato)

/-- Step 5: `inc1`. -/
def tickInc1 (s : State) : Word := incOsc1 s.note.noteInc (tickFm s)

/-- Step 5: `o1`, from the phase before its advance. -/
def tickO1 (s : State) : Int :=
  oscOut (oscAmp (tickAmp s) (s32 s.act.mul1)) (waveformOf s.act.type1) (s32 s.act.sharp1) s.osc1

/-- Step 6: `inc2`, from the `inc1` of the same tick. -/
def tickInc2 (s : State) : Word := incN (tickInc1 s) (s32 s.act.interval2) (s32 s.act.range2)

/-- Step 6: `inc3`, from the `inc1` of the same tick. -/
def tickInc3 (s : State) : Word := incN (tickInc1 s) (s32 s.act.interval3) (s32 s.act.range3)

/-- Step 6: `o2`. -/
def tickO2 (s : State) : Int :=
  oscOut (oscAmp (tickAmp s) (s32 s.act.mul2)) (waveformOf s.act.type2) (s32 s.act.sharp2) s.osc2

/-- Step 6: `o3`. -/
def tickO3 (s : State) : Int :=
  oscOut (oscAmp3 (tickAmp s) (s32 s.act.mul3) (s32 s.act.switch3)) (waveformOf s.act.type3) (s32 s.act.sharp3) s.osc3

/-- Step 7: `bank`, a plain sum (43_oscillator.md R175). -/
def tickBank (s : State) : Int := tickO1 s + tickO2 s + tickO3 s

/-- Step 8: `noise`. -/
def tickNoise (s : State) : Int :=
  noiseMux s.whiteIn s.pinkIn (s32 s.act.voiceSel) (s32 s.act.mulWhiteNoise) (s32 s.act.mulPinkNoise)

/-- Step 8: the filter input `x` (44_filter_output.md R182). -/
def tickX (s : State) : Int := tickBank s + tickNoise s

/-- Step 9: the cutoff coefficient `g`, recomputed every tick (R190 to R192). -/
def tickCoef (s : State) : Int := cutCoef (cutoffInc s.cfg (tickEnvF s) (s32 s.act.cutoffFact))

/-- Step 9: the filter after the tick. -/
def tickFilter (s : State) : Filter := ladder s.filter (tickX s) (tickCoef s) (resGain (s32 s.act.res))

/-- Step 10: the word on both output channels (R197). -/
def tickOut (s : State) : Word := u32 (stereo (s32 (tickFilter s).y4))

/-- What a `TICK` writes of the state: both envelopes, the five generators, the filter (R92, 10_state.md R33). -/
def State.tickState (s : State) : State :=
  { s with
    ega := egTick s.cfg.ega s.ega
    egf := egTick s.cfg.egf s.egf
    lfoT := advance s.lfoT (lfoInc s.cfg.fs (s32 s.act.lfotremolo))
    lfoV := advance s.lfoV (lfoInc s.cfg.fs (s32 s.act.lfovibrato))
    osc1 := advance s.osc1 (tickInc1 s)
    osc2 := advance s.osc2 (tickInc2 s)
    osc3 := advance s.osc3 (tickInc3 s)
    filter := tickFilter s }

/-- `TICK` (R92). -/
def execTick (s : State) : Host.Outcome State Fault Refusal := .next (s.tickState.emit (tickOut s) (tickOut s))

end Sys2Proof.Machine
end

