-- ==== Sys2Proof/Machine/Dispatch.lean ====
section
/-! DEFINITION. The meaning of each command: one arm per constructor of `Instr` (30_encoding.md R66). -/

namespace Sys2Proof.Machine

def exec (i : Instr) (s : State) : Host.Outcome State Fault Refusal :=
  match i with
  | .nop => Sys2Proof.Machine.execNop s
  | .setp a v => Sys2Proof.Machine.execSetp a v s
  | .getp a => Sys2Proof.Machine.execGetp a s
  | .note a gate v => Sys2Proof.Machine.execNote a gate v s
  | .blk => Sys2Proof.Machine.execBlk s
  | .tick => Sys2Proof.Machine.execTick s

end Sys2Proof.Machine
end

