-- ==== Sys2Proof/Machine/Step.lean ====
section
/-! DEFINITION. One step of the machine: the next event the host has delivered, executed to completion (20_memory.md R56). -/

namespace Sys2Proof.Machine

/-- One step. A command is executed; a word with a reserved opcode has no effect (30_encoding.md R70 a); `rst` resets
(70_reset_and_hazards.md R225); with nothing delivered the block keeps its state (60_exceptions.md R217). A state whose
configuration is none of R6's is refused by name (93_implementation_defined.md U16, log 2). -/
def step (s : State) : Host.Outcome State Fault Refusal :=
  if s.cfg.wf then
    match s.fetch with
    | .idle => .next s
    | .rst t => .next t.applyReset
    | .reserved t => .next t
    | .command i t => exec i t
  else .refused .illegalConfiguration

/-- `s` with the word of an opcode-table row delivered as the host's next command (log 8). -/
def State.withFetchWord (s : State) (nbits w : Nat) : State := s.place (tableWord nbits w)

end Sys2Proof.Machine
end

