-- ==== Sys2Proof/Safety.lean ====
section
/-! DEFINITION. What claims about runs speak of: the invariant of 10_state.md R32 with the stage law of 41_envelope.md R112,
the quiet states of 70_reset_and_hazards.md R227, and runs on a list of delivered events. -/

namespace Sys2Proof.Machine

/-- A word is a `fix` in `0 .. ONE`. -/
abbrev InUnit (w : Word) : Prop := 0 ≤ s32 w ∧ s32 w ≤ ONE

/-- A word is a `fix` in `-ONE .. ONE` (10_state.md R29). -/
abbrev InSignal (w : Word) : Prop := -ONE ≤ s32 w ∧ s32 w ≤ ONE

/-- A word is a `fix` in `-ONE .. ONE - 1` (R28). -/
abbrev InSample (w : Word) : Prop := -ONE ≤ s32 w ∧ s32 w ≤ ONE - 1

/-- Every register of a file is inside its range (R20 to R22). -/
def Params.InRange (f : Params) : Prop := ∀ p : Param, p.lo ≤ s32 (f.get p) ∧ s32 (f.get p) ≤ p.hi

/-- What R26 and R32 say of an envelope in each stage: `elapsed` within the stage's duration, 0 in Idle and Sustain; the
level those two stages hold; the start Decay is entered with (41_envelope.md R115). -/
def Envelope.StageInv (c : EgCfg) (e : Envelope) : Prop :=
  match e.stage with
  | .idle => s32 e.level = 0 ∧ e.elapsed = 0
  | .attack => e.elapsed.toNat < c.na
  | .decay => e.elapsed.toNat < c.nd ∧ s32 e.start = ONE
  | .sustain => s32 e.level = c.sus ∧ e.elapsed = 0
  | .release => e.elapsed.toNat < c.nr

/-- The invariant of an envelope (R32). -/
def Envelope.Inv (c : EgCfg) (e : Envelope) : Prop := InUnit e.level ∧ InUnit e.start ∧ e.StageInv c

/-- The level lies on the line of its stage, whatever the start (41_envelope.md R112). -/
def Envelope.OnLine (c : EgCfg) (e : Envelope) : Prop :=
  match e.stage with
  | .attack => s32 e.level = rising (s32 e.start) ONE e.elapsed.toNat c.na
  | .decay => s32 e.level = falling (s32 e.start) c.sus e.elapsed.toNat c.nd
  | .release => s32 e.level = falling (s32 e.start) 0 e.elapsed.toNat c.nr
  | .idle | .sustain => True

/-- The invariant of a generator (R28, R32). -/
def Generator.Inv (g : Generator) : Prop := g.lfsr ≠ 0 ∧ InSample g.shPrev ∧ InSample g.shCur

/-- The invariant of the filter (R29, R32). -/
def Filter.Inv (f : Filter) : Prop := InSignal f.y1 ∧ InSignal f.y2 ∧ InSignal f.y3 ∧ InSignal f.y4

/-- The invariant of the machine (10_state.md R32), with the configuration legal (00_scope.md R6). -/
structure State.Inv (s : State) : Prop where
  cfg : s.cfg.wf = true
  pend : s.pend.InRange
  act : s.act.InRange
  latchVel : InUnit s.latch.vel
  trigEv : s.latch.trig = true → s.latch.ev = true
  noteVel : InUnit s.note.vel
  noteInc : s.note.noteInc = noteIncOf s.cfg s.note.pitch
  ega : s.ega.Inv s.cfg.ega
  egf : s.egf.Inv s.cfg.egf
  osc1 : s.osc1.Inv
  osc2 : s.osc2.Inv
  osc3 : s.osc3.Inv
  lfoT : s.lfoT.Inv
  lfoV : s.lfoV.Inv
  filter : s.filter.Inv

/-- Both envelopes are on the line of their stage (41_envelope.md R112). -/
def State.OnLines (s : State) : Prop := s.ega.OnLine s.cfg.ega ∧ s.egf.OnLine s.cfg.egf

/-- A block that has not been programmed: no note pending, registers at reset in both copies, envelopes Idle, filter at 0;
the generators, the note and the ports may hold anything (R227, 60_exceptions.md R208). -/
structure State.Quiet (s : State) : Prop where
  cfg : s.cfg.wf = true
  pend : s.pend = Params.reset
  act : s.act = Params.reset
  ev : s.latch.ev = false
  ega : s.ega.stage = .idle
  egf : s.egf.stage = .idle
  filter : s.filter = { y1 := 0, y2 := 0, y3 := 0, y4 := 0 }

/-- A `BLK` on the command port. -/
def Event.blk : Event := .command (encode .blk) 0 0

/-- A `TICK` on the command port with a pair of noise samples. -/
def Event.tick (x : Word × Word) : Event := .command (encode .tick) x.1 x.2

/-- A command on the command port, with zeros on the sample ports. -/
def Event.ofInstr (i : Instr) : Event := .command (encode i) 0 0

/-- A `NOTE` on the command port. -/
def Event.note (n : Byte × Bool × Word) : Event := Event.ofInstr (.note n.1 n.2.1 n.2.2)

/-- The event is the transfer of a `TICK`. -/
def Event.isTick : Event → Bool
  | .command w _ _ => decide (decode w = .command .tick)
  | .rst => false

/-- The event is the transfer of a `BLK`. -/
def Event.isBlk : Event → Bool
  | .command w _ _ => decide (decode w = .command .blk)
  | .rst => false

/-- A run that starts with the host delivering exactly these events, one step for each. -/
def State.runOn (s : State) (es : List Event) : Host.Outcome State Fault Refusal :=
  Host.Core.run core es.length ({ s with input := es } : State)

end Sys2Proof.Machine
end

