-- ==== Sys2Proof/Certificates/Slice0/Obligations.lean ====
section
/-! DEFINITION. The statements about the model, each a formalisation of rules of spec/. OBLIGATIONS.json lists them. -/

open Sys2Proof Sys2Proof.Machine

-- Reset and the invariants

/-- R226: the state after reset, item by item, for every configuration; from then on no command but a `GETP` sends the first
response and no command but a `TICK` the first sample. -/
def Obligations.ResetLeavesTheStatedValues : Prop :=
  ∀ c : Cfg,
    (∀ p : Param, s32 ((State.resetWith c).pend.get p) = if p = .range2 ∨ p = .range3 then 1 else 0) ∧
    (∀ p : Param, (State.resetWith c).act.get p = (State.resetWith c).pend.get p) ∧
    (State.resetWith c).latch = { pitch := 0, vel := 0, gate := false, trig := false, ev := false } ∧
    (State.resetWith c).note = { pitch := 0, vel := 0, gate := false, noteInc := noteIncAt c.fs 0 } ∧
    (noteIncAt 48000 0).toNat = 731558 ∧
    (State.resetWith c).ega = { stage := .idle, level := 0, elapsed := 0, start := 0 } ∧
    (State.resetWith c).egf = { stage := .idle, level := 0, elapsed := 0, start := 0 } ∧
    (State.resetWith c).osc1 = { phase := 0, lfsr := 0x13579BDF, shPrev := 0, shCur := 0 } ∧
    (State.resetWith c).osc2 = { phase := 0, lfsr := 0x2468ACE1, shPrev := 0, shCur := 0 } ∧
    (State.resetWith c).osc3 = { phase := 0, lfsr := 0x0F1E2D3C, shPrev := 0, shCur := 0 } ∧
    (State.resetWith c).lfoT = { phase := 0, lfsr := 0x9E3779B9, shPrev := 0, shCur := 0 } ∧
    (State.resetWith c).lfoV = { phase := 0, lfsr := 0x7F4A7C15, shPrev := 0, shCur := 0 } ∧
    (State.resetWith c).filter = { y1 := 0, y2 := 0, y3 := 0, y4 := 0 } ∧
    (State.resetWith c).rsp = [] ∧ (State.resetWith c).out = [] ∧
    ∀ (i : Instr) (s t : State), exec i s = .next t →
      ((∀ a, i ≠ .getp a) → s.rsp = [] → t.rsp = []) ∧ (i ≠ .tick → s.out = [] → t.out = [])

/-- R32: the invariant and the stage law hold right after reset, for every legal configuration. -/
def Obligations.InvariantHoldsAtReset : Prop :=
  ∀ c : Cfg, c.wf = true → (State.resetWith c).Inv ∧ (State.resetWith c).OnLines

/-- R32: every step keeps the invariant, from every state that has it. -/
def Obligations.EveryStepKeepsTheInvariant : Prop :=
  ∀ s t : State, s.Inv → step s = .next t → t.Inv

/-- R112: every step keeps both envelopes on the line of their stage. -/
def Obligations.EveryStepKeepsTheStageLaw : Prop :=
  ∀ s t : State, s.Inv → s.OnLines → step s = .next t → t.OnLines

-- The step

/-- R56, R30: when the next transfer decodes to a command, the step is that command executed with the transfer taken; a
`TICK` finds the pair presented with it on the sample ports, no other command touches them. -/
def Obligations.StepRunsTheDecodedCommand : Prop :=
  ∀ (s : State) (w : CmdWord) (white pink : Word) (rest : List Event) (i : Instr),
    s.cfg.wf = true → s.input = .command w white pink :: rest → decode w = .command i →
      (i = .tick → step s = exec .tick { s with input := rest, whiteIn := white, pinkIn := pink }) ∧
      (i ≠ .tick → step s = exec i { s with input := rest })

/-- R70 (a): a word with a reserved opcode is taken and changes nothing else. -/
def Obligations.ReservedOpcodeHasNoEffect : Prop :=
  ∀ (s : State) (w : CmdWord) (white pink : Word) (rest : List Event),
    s.cfg.wf = true → s.input = .command w white pink :: rest → 6 ≤ (opField w).toNat →
      step s = .next { s with input := rest }

/-- R225, R226: `rst` puts every item of state to its reset value and keeps the configuration. That the transfers not yet
delivered and the outputs already sent stay is the model's choice (log 6), and so are the zeros `whiteIn` and `pinkIn` hold
after it (log 5). -/
def Obligations.RstRestoresTheResetState : Prop :=
  ∀ (s : State) (rest : List Event), s.cfg.wf = true → s.input = .rst :: rest →
    step s = .next { State.resetWith s.cfg with input := rest, rsp := s.rsp, out := s.out }

/-- R217: a block that receives no command keeps its state. -/
def Obligations.BlockWithoutCommandKeepsItsState : Prop :=
  ∀ s : State, s.cfg.wf = true → s.input = [] → step s = .next s

/-- R60: every command completes from every state, and so does every step of a legal configuration. -/
def Obligations.EveryCommandCompletesFromEveryState : Prop :=
  (∀ (i : Instr) (s : State), ∃ t, exec i s = .next t) ∧
  ∀ s : State, s.cfg.wf = true → ∃ t, step s = .next t

/-- U16 of 93_implementation_defined.md: a configuration outside the legal ranges is refused by name (log 2). -/
def Obligations.IllegalConfigurationIsRefused : Prop :=
  (∀ s : State, s.cfg.wf = false → step s = .refused .illegalConfiguration) ∧
  (∀ c : Cfg, c.wf = true ↔
    80 ≤ c.fs ∧
    (∀ e : EgCfg, e = c.ega ∨ e = c.egf →
      (1 ≤ e.na ∧ e.na < 2 ^ 32) ∧ (1 ≤ e.nd ∧ e.nd < 2 ^ 32) ∧ (1 ≤ e.nr ∧ e.nr < 2 ^ 32) ∧
      (0 ≤ e.sus ∧ e.sus ≤ ONE) ∧ (0 ≤ e.pg ∧ e.pg ≤ ONE)) ∧
    (0 ≤ c.lfoT.sharp ∧ c.lfoT.sharp ≤ ONE) ∧ (0 ≤ c.lfoV.sharp ∧ c.lfoV.sharp ≤ ONE) ∧
    cutMinInc c ≤ CUT_MAX_INC)

/-- R213: a step sends exactly one equal pair for a `TICK`, exactly one word for a `GETP` and nothing otherwise; it takes
exactly the event it executes, and it never changes the configuration (R225). That the transfers not yet delivered and the
words already sent stay at `rst` is the model's choice (log 6). -/
def Obligations.OutputsAreOnePairPerTickAndOneWordPerGetp : Prop :=
  ∀ s t : State, step s = .next t →
    t.cfg = s.cfg ∧ t.input = s.input.tail ∧
    (∀ w white pink rest, s.input = .command w white pink :: rest → decode w = .command .tick →
      ∃ x, t.out = s.out ++ [(x, x)] ∧ t.rsp = s.rsp) ∧
    (∀ w white pink rest a, s.input = .command w white pink :: rest → decode w = .command (.getp a) →
      ∃ x, t.rsp = s.rsp ++ [x] ∧ t.out = s.out) ∧
    ((∀ w white pink rest, s.input = .command w white pink :: rest →
        decode w ≠ .command .tick ∧ ∀ a, decode w ≠ .command (.getp a)) →
      t.out = s.out ∧ t.rsp = s.rsp)

-- Encoding

/-- R65 to R67: the word of a command decodes to that command, every operand at every value. -/
def Obligations.DecodeOfEncodeIsTheCommand : Prop :=
  ∀ i : Instr, decode (encode i) = .command i

/-- R69: the opcode alone selects the command; 0x06 to 0xFF are reserved. -/
def Obligations.OpcodeAloneSelectsTheCommand : Prop :=
  ∀ w : CmdWord,
    ((opField w).toNat = 0 ↔ decode w = .command .nop) ∧
    ((opField w).toNat = 1 ↔ ∃ a v, decode w = .command (.setp a v)) ∧
    ((opField w).toNat = 2 ↔ ∃ a, decode w = .command (.getp a)) ∧
    ((opField w).toNat = 3 ↔ ∃ a g v, decode w = .command (.note a g v)) ∧
    ((opField w).toNat = 4 ↔ decode w = .command .blk) ∧
    ((opField w).toNat = 5 ↔ decode w = .command .tick) ∧
    (6 ≤ (opField w).toNat ↔ decode w = .reservedOpcode (opField w))

/-- R67, R70 (d): each command reads the fields it uses and ignores every content of the others. -/
def Obligations.UnusedFieldsAreIgnored : Prop :=
  ∀ (a : Byte) (b : BitVec 16) (v : Word),
    decode (cmdWord 0x00 a b v) = .command .nop ∧
    decode (cmdWord 0x01 a b v) = .command (.setp a v) ∧
    decode (cmdWord 0x02 a b v) = .command (.getp a) ∧
    decode (cmdWord 0x03 a b v) = .command (.note a (b.getLsbD 0) v) ∧
    decode (cmdWord 0x04 a b v) = .command .blk ∧
    decode (cmdWord 0x05 a b v) = .command .tick

/-- R67, R73: a word of one of the six opcodes whose unused fields are zero is the word the encoder gives its command. -/
def Obligations.EncodeOfDecodeIsTheCanonicalWord : Prop :=
  ∀ w : CmdWord,
    ((opField w).toNat = 0 ∨ (opField w).toNat = 4 ∨ (opField w).toNat = 5) ∧
        aField w = 0 ∧ bField w = 0 ∧ vField w = 0 ∨
      (opField w).toNat = 1 ∧ bField w = 0 ∨
      (opField w).toNat = 2 ∧ bField w = 0 ∧ vField w = 0 ∨
      (opField w).toNat = 3 ∧ (bField w).toNat ≤ 1 →
    ∃ i, decode w = .command i ∧ encode i = w

/-- R74: the worked encodings of the spec. -/
def Obligations.WorkedEncodingsDecode : Prop :=
  decode 0x0102000001000000 = .command (.setp 2 16777216) ∧
  decode 0x01060000FFFFFFFD = .command (.setp 6 0xFFFFFFFD) ∧
  decode 0x020F000000000000 = .command (.getp 15) ∧
  decode 0x0345000101000000 = .command (.note 69 true 16777216) ∧
  decode 0x0345000000000000 = .command (.note 69 false 0) ∧
  decode 0x0400000000000000 = .command .blk ∧
  decode 0x0500000000000000 = .command .tick ∧
  decode 0x0000000000000000 = .command .nop

-- The control path

/-- R85: `NOP` completes and leaves every state unchanged; every word with opcode 0 is a `NOP`. -/
def Obligations.NopLeavesEveryStateUnchanged : Prop :=
  (∀ s : State, exec .nop s = .next s) ∧
  ∀ w : CmdWord, (opField w).toNat = 0 → decode w = .command .nop

/-- R20: the addresses, names and legal ranges of the 23 registers; R55: nothing at 23 to 255. -/
def Obligations.RegisterMapIsTheTable : Prop :=
  (List.range 23).map (fun n => (Param.ofAddr (BitVec.ofNat 8 n)).map fun p => (p.name, p.lo, p.hi)) =
    [some ("type1", 0, 7), some ("sharp1", 0, ONE), some ("mul1", 0, ONE), some ("type2", 0, 7),
      some ("sharp2", 0, ONE), some ("mul2", 0, ONE), some ("interval2", -8, 8), some ("range2", 1, 6)] ++
    [some ("switch3", 0, 1), some ("type3", 0, 7), some ("sharp3", 0, ONE), some ("mul3", 0, ONE),
      some ("interval3", -8, 8), some ("range3", 1, 6), some ("cutoffFact", 0, ONE), some ("res", 0, ONE)] ++
    [some ("voiceSel", 0, 1), some ("mulWhiteNoise", 0, ONE), some ("mulPinkNoise", 0, ONE),
      some ("lfotremolo", 0, 2 ^ 31 - 1), some ("selector_adsrtremolo", 0, ONE),
      some ("lfovibrato", 0, 2 ^ 31 - 1), some ("selector_adsrvibrato", 0, 2 * ONE)] ∧
  ∀ a : Byte, 23 ≤ a.toNat → Param.ofAddr a = none

/-- R86: `SETP` completes; it stores the value clamped into the register's range and changes nothing else; a value equal to
the stored one changes nothing, nor does an unimplemented address; the next `BLK` hands it to the datapath; the examples. -/
def Obligations.SetpStoresTheClampedValue : Prop :=
  ∀ (s : State) (a : Byte) (v : Word),
    (a.toNat ≤ 22 →
      ∃ p t, Param.ofAddr a = some p ∧ exec (.setp a v) s = .next t ∧ t = { s with pend := t.pend } ∧
        s32 (t.pend.get p) = max p.lo (min p.hi (s32 v)) ∧ ∀ q, q ≠ p → t.pend.get q = s.pend.get q) ∧
    (23 ≤ a.toNat → exec (.setp a v) s = .next s) ∧
    (∀ p, Param.ofAddr a = some p → v = s.pend.get p → p.lo ≤ s32 v → s32 v ≤ p.hi → exec (.setp a v) s = .next s) ∧
    (∀ t u : State, exec (.setp a v) s = .next t → exec .blk t = .next u → u.act = t.pend) ∧
    (∃ t, exec (.setp 1 0x02000000) s = .next t ∧ s32 t.pend.sharp1 = ONE) ∧
    (∃ t, exec (.setp 6 12) s = .next t ∧ s32 t.pend.interval2 = 8) ∧
    (∃ t, exec (.setp 13 0) s = .next t ∧ s32 t.pend.range3 = 1) ∧
    (∃ t, exec (.setp 0 0xFFFFFFFF) s = .next t ∧ s32 t.pend.type1 = 0) ∧
    ∃ t, exec (.setp 22 0x03000000) s = .next t ∧ s32 t.pend.selectorAdsrvibrato = 2 * ONE

/-- R87: `GETP` completes, sends exactly one word, the pending register or 0 at an unimplemented address, and writes no
state; with the two examples of the rule. -/
def Obligations.GetpAnswersThePendingRegister : Prop :=
  (∀ (s : State) (a : Byte),
    (∀ p, Param.ofAddr a = some p → exec (.getp a) s = .next { s with rsp := s.rsp ++ [s.pend.get p] }) ∧
    (23 ≤ a.toNat → exec (.getp a) s = .next { s with rsp := s.rsp ++ [0] })) ∧
  (∀ c : Cfg, exec (.getp 7) (State.resetWith c) = .next { State.resetWith c with rsp := [1] }) ∧
  ∀ s t : State, exec (.setp 2 0x02000000) s = .next t →
    exec (.getp 2) t = .next { t with rsp := s.rsp ++ [0x01000000] }

/-- R54, R57 (a), R234: a `GETP` after a `SETP` shows the clamped value, the last of two `SETP` wins, and writing back a
value read leaves the state as it was. -/
def Obligations.WrittenRegisterReadsBackClamped : Prop :=
  (∀ (s : State) (a : Byte) (v : Word) (p : Param), Param.ofAddr a = some p →
    ∃ t, exec (.setp a v) s = .next t ∧
      exec (.getp a) t = .next { t with rsp := s.rsp ++ [u32 (max p.lo (min p.hi (s32 v)))] }) ∧
  (∀ (s : State) (a : Byte) (v w : Word) (t : State), exec (.setp a v) s = .next t →
    exec (.setp a w) t = exec (.setp a w) s) ∧
  ∀ (s : State) (a : Byte), s.pend.InRange → exec (.setp a (s.paramRead a)) s = .next s

/-- R88: `NOTE` completes; it writes the latch, with pitch and velocity clamped, and nothing else; a `TICK` before the next
`BLK` sends what it would have sent without it; the example. -/
def Obligations.NoteWritesTheLatch : Prop :=
  (∀ (s : State) (a : Byte) (gate : Bool) (v : Word),
    ∃ t, exec (.note a gate v) s = .next t ∧ t = { s with latch := t.latch } ∧
      t.latch.pitch.val = min a.toNat 127 ∧ s32 t.latch.vel = max 0 (min ONE (s32 v)) ∧ t.latch.gate = gate ∧
      (gate = true → t.latch.trig = true) ∧ (gate = false → t.latch.trig = s.latch.trig) ∧ t.latch.ev = true ∧
      ∃ u u', exec .tick s = .next u ∧ exec .tick t = .next u' ∧ u'.out = u.out) ∧
  ∀ c : Cfg, ∃ t, exec (.note 69 true 0x01000000) (State.resetWith c) = .next t ∧
    t.latch = { pitch := 69, vel := 0x01000000, gate := true, trig := true, ev := true }

/-- R231: of the notes between two `BLK` the latch keeps the last one, and whether any of them was a note-on. -/
def Obligations.NotesBetweenBlocksCoalesce : Prop :=
  ∀ (s : State) (ns : List (Byte × Bool × Word)) (n : Byte × Bool × Word), s.cfg.wf = true →
    ∃ t, s.runOn ((ns ++ [n]).map Event.note) = .next t ∧ t = { s with latch := t.latch, input := [] } ∧
      t.latch.pitch.val = min n.1.toNat 127 ∧ s32 t.latch.vel = max 0 (min ONE (s32 n.2.2)) ∧
      t.latch.gate = n.2.1 ∧ t.latch.ev = true ∧
      (t.latch.trig = true ↔ s.latch.trig = true ∨ ∃ m ∈ ns ++ [n], m.2.1 = true)

-- The block boundary

/-- R91, R110, R111: `BLK` completes; it publishes all registers, takes over a pending note event, and moves the envelopes'
stages by `GateOn` and then `GateOff`, from their current levels; it changes nothing else. With nothing pending and no
register changed it is the identity, and `BLK; BLK` is `BLK`; the example. -/
def Obligations.BlkPublishesRegistersAndNote : Prop :=
  (∀ s : State, ∃ t, exec .blk s = .next t ∧ t.act = s.pend ∧
    (s.latch.ev = false → t = { s with act := s.pend }) ∧
    (s.latch.ev = true →
      t = { s with act := t.act, note := t.note, latch := t.latch, ega := t.ega, egf := t.egf } ∧
      t.note =
        { pitch := s.latch.pitch, vel := s.latch.vel, gate := s.latch.gate,
          noteInc := noteIncAt s.cfg.fs s.latch.pitch.val } ∧
      t.latch = { s.latch with trig := false, ev := false } ∧
      ∀ e e' : Envelope, (e, e') = (s.ega, t.ega) ∨ (e, e') = (s.egf, t.egf) →
        (s.latch.trig = true → s.latch.gate = true →
          e' = { stage := .attack, level := e.level, elapsed := 0, start := e.level }) ∧
        (s.latch.trig = true → s.latch.gate = false →
          e' = { stage := .release, level := e.level, elapsed := 0, start := e.level }) ∧
        (s.latch.trig = false → s.latch.gate = false → e.stage ≠ .idle → e.stage ≠ .release →
          e' = { stage := .release, level := e.level, elapsed := 0, start := e.level }) ∧
        (s.latch.trig = false → s.latch.gate = false → e.stage = .idle ∨ e.stage = .release → e' = e) ∧
        (s.latch.trig = false → s.latch.gate = true → e' = e))) ∧
  (∀ s : State, s.latch.ev = false → s.act = s.pend → exec .blk s = .next s) ∧
  (∀ s t : State, exec .blk s = .next t → exec .blk t = .next t) ∧
  ∀ c : Cfg, ∃ t1 t2 t,
    exec (.setp 2 0x01000000) (State.resetWith c) = .next t1 ∧ exec (.note 69 true 0x01000000) t1 = .next t2 ∧
      exec .blk t2 = .next t ∧ s32 t.act.mul1 = ONE ∧
      t.note = { pitch := 69, vel := 0x01000000, gate := true, noteInc := noteIncAt c.fs 69 } ∧
      t.ega = { stage := .attack, level := 0, elapsed := 0, start := 0 } ∧
      t.egf = { stage := .attack, level := 0, elapsed := 0, start := 0 } ∧
      t.latch.trig = false ∧ t.latch.ev = false

/-- R93: splitting a block in two changes neither the state nor any output sample, bit for bit. -/
def Obligations.BlockSizeDoesNotMatter : Prop :=
  ∀ (s : State) (xs ys : List (Word × Word)), s.cfg.wf = true →
    ∃ t, s.runOn (Event.blk :: (xs ++ ys).map Event.tick) = .next t ∧
      s.runOn (Event.blk :: xs.map Event.tick ++ Event.blk :: ys.map Event.tick) = .next t

-- The tick

/-- R92: `TICK` completes with the ten steps in their order, each from the state before the tick and the values of earlier
steps; it writes the envelopes, the generators and the filter, sends one pair, and changes nothing else. With all-zero
inputs it sends zeros after reset. -/
def Obligations.TickRunsTheTenSteps : Prop :=
  (∀ s : State,
    let envA := fmul (s32 (egTick s.cfg.ega s.ega).level) s.cfg.ega.pg
    let envF := fmul (s32 (egTick s.cfg.egf s.egf).level) s.cfg.egf.pg
    let wT := wave s.cfg.lfoT.type s.cfg.lfoT.sharp s.lfoT
    let wV := wave s.cfg.lfoV.type s.cfg.lfoV.sharp s.lfoV
    let amp := ampSel envA (trem wT) (s32 s.act.selectorAdsrtremolo)
    let fm := freqSel envA (vib wV) (s32 s.act.selectorAdsrvibrato)
    let inc1 := incOsc1 s.note.noteInc fm
    let o1 := oscOut (fmul amp (s32 s.act.mul1)) (waveformOf s.act.type1) (s32 s.act.sharp1) s.osc1
    let inc2 := incN inc1 (s32 s.act.interval2) (s32 s.act.range2)
    let inc3 := incN inc1 (s32 s.act.interval3) (s32 s.act.range3)
    let o2 := oscOut (fmul amp (s32 s.act.mul2)) (waveformOf s.act.type2) (s32 s.act.sharp2) s.osc2
    let a3 := if s32 s.act.switch3 = 1 then fmul amp (s32 s.act.mul3) else 0
    let o3 := oscOut a3 (waveformOf s.act.type3) (s32 s.act.sharp3) s.osc3
    let noise :=
      noiseMux s.whiteIn s.pinkIn (s32 s.act.voiceSel) (s32 s.act.mulWhiteNoise) (s32 s.act.mulPinkNoise)
    let x := o1 + o2 + o3 + noise
    let g := cutCoef (cutoffInc s.cfg envF (s32 s.act.cutoffFact))
    let y := ladder s.filter x g (resGain (s32 s.act.res))
    let o := u32 (stereo (s32 y.y4))
    exec .tick s = .next
      { s with
        ega := egTick s.cfg.ega s.ega
        egf := egTick s.cfg.egf s.egf
        lfoT := advance s.lfoT (lfoInc s.cfg.fs (s32 s.act.lfotremolo))
        lfoV := advance s.lfoV (lfoInc s.cfg.fs (s32 s.act.lfovibrato))
        osc1 := advance s.osc1 inc1
        osc2 := advance s.osc2 inc2
        osc3 := advance s.osc3 inc3
        filter := y
        out := s.out ++ [(o, o)] }) ∧
  ∀ c : Cfg, ∃ t, exec .tick { State.resetWith c with whiteIn := 0, pinkIn := 0 } = .next t ∧ t.out = [(0, 0)]

/-- R33, R165: which command may write which state. What a command may not write is as before. -/
def Obligations.EachCommandWritesOnlyItsState : Prop :=
  ∀ (i : Instr) (s t : State), exec i s = .next t →
    t.cfg = s.cfg ∧ t.input = s.input ∧ t.whiteIn = s.whiteIn ∧ t.pinkIn = s.pinkIn ∧
    ((∀ a v, i ≠ .setp a v) → t.pend = s.pend) ∧
    (i ≠ .blk → t.act = s.act ∧ t.note = s.note) ∧
    ((∀ a g v, i ≠ .note a g v) → i ≠ .blk → t.latch = s.latch) ∧
    (i = .blk → t.latch.pitch = s.latch.pitch ∧ t.latch.vel = s.latch.vel ∧ t.latch.gate = s.latch.gate ∧
      t.ega.level = s.ega.level ∧ t.egf.level = s.egf.level) ∧
    (i ≠ .blk → i ≠ .tick → t.ega = s.ega ∧ t.egf = s.egf) ∧
    (i ≠ .tick → t.osc1 = s.osc1 ∧ t.osc2 = s.osc2 ∧ t.osc3 = s.osc3 ∧ t.lfoT = s.lfoT ∧ t.lfoV = s.lfoV ∧
      t.filter = s.filter ∧ t.out = s.out) ∧
    ((∀ a, i ≠ .getp a) → t.rsp = s.rsp)

/-- R57 (b), R58, R212: what the control path sends between two `BLK` never reaches the datapath: with every command but
the `TICK`s left out, the ticks give the same samples and the same state of the render path. -/
def Obligations.ControlTrafficWithinABlockIsInaudible : Prop :=
  ∀ (s : State) (es : List Event), s.cfg.wf = true → (∀ e ∈ es, e ≠ .rst ∧ e.isBlk = false) →
    ∃ t u, s.runOn es = .next t ∧ s.runOn (es.filter Event.isTick) = .next u ∧
      t = { u with pend := t.pend, latch := t.latch, rsp := t.rsp }

/-- R122: the velocity enters no computation: states that differ in velocities only step to states that differ in
velocities only, and so do notes that differ in velocity only. -/
def Obligations.VelocityIsInaudible : Prop :=
  (∀ (s t : State) (v w : Word), step s = .next t →
    ∃ t', step { s with note := { s.note with vel := v }, latch := { s.latch with vel := w } } = .next t' ∧
      t' = { t with note := { t.note with vel := t'.note.vel }, latch := { t.latch with vel := t'.latch.vel } }) ∧
  ∀ (s : State) (a : Byte) (gate : Bool) (v w : Word), ∃ t t',
    exec (.note a gate v) s = .next t ∧ exec (.note a gate w) s = .next t' ∧
      t' = { t with latch := { t.latch with vel := t'.latch.vel } }

/-- R227: a block that is only clocked, with any noise on its inputs, sends zeros for ever; it starts so after reset. -/
def Obligations.UnprogrammedBlockIsSilent : Prop :=
  (∀ c : Cfg, c.wf = true → (State.resetWith c).Quiet) ∧
  ∀ (s : State) (es : List Event), s.Quiet → (∀ e ∈ es, e.isTick = true ∨ e.isBlk = true) →
    ∃ t, s.runOn es = .next t ∧ t.Quiet ∧ t.out = s.out ++ List.replicate (es.countP Event.isTick) (0, 0)

/-- R208: with the amplitude envelope Idle, the amplitude selector at 0, the noise silent and the filter at 0, a tick sends
zeros and leaves the filter at 0, whatever else the registers and generators hold. -/
def Obligations.IdleEnvelopeIsSilent : Prop :=
  ∀ s : State, s.ega.stage = .idle → s.act.selectorAdsrtremolo = 0 →
    s.filter = { y1 := 0, y2 := 0, y3 := 0, y4 := 0 } →
    (s.whiteIn = 0 ∧ s.pinkIn = 0 ∨ s.act.mulWhiteNoise = 0 ∧ s.act.mulPinkNoise = 0) →
    ∃ t, exec .tick s = .next t ∧ t.out = s.out ++ [(0, 0)] ∧ t.filter = s.filter

-- The envelopes

/-- R113 to R117: one tick of an envelope in each of its stages. -/
def Obligations.EnvelopeTickFollowsItsStage : Prop :=
  ∀ (c : EgCfg) (e : Envelope), c.wf = true → e.Inv c →
    (e.stage = .idle → egTick c e = { e with level := 0 }) ∧
    (e.stage = .attack → c.na ≤ e.elapsed.toNat + 1 →
      egTick c e = { stage := .decay, level := u32 ONE, elapsed := 0, start := u32 ONE }) ∧
    (e.stage = .attack → e.elapsed.toNat + 1 < c.na →
      ∃ l : Word, egTick c e = { e with elapsed := e.elapsed + 1, level := l } ∧
        s32 l = s32 e.start + (ONE - s32 e.start) * (e.elapsed.toNat + 1) / c.na) ∧
    (e.stage = .decay → c.nd ≤ e.elapsed.toNat + 1 →
      egTick c e = { stage := .sustain, level := u32 c.sus, elapsed := 0, start := u32 c.sus }) ∧
    (e.stage = .decay → e.elapsed.toNat + 1 < c.nd →
      ∃ l : Word, egTick c e = { e with elapsed := e.elapsed + 1, level := l } ∧
        s32 l = s32 e.start - (s32 e.start - c.sus) * (e.elapsed.toNat + 1) / c.nd) ∧
    (e.stage = .sustain → egTick c e = { e with level := u32 c.sus }) ∧
    (e.stage = .release → c.nr ≤ e.elapsed.toNat + 1 →
      egTick c e = { stage := .idle, level := 0, elapsed := 0, start := 0 }) ∧
    (e.stage = .release → e.elapsed.toNat + 1 < c.nr →
      ∃ l : Word, egTick c e = { e with elapsed := e.elapsed + 1, level := l } ∧
        s32 l = s32 e.start - s32 e.start * (e.elapsed.toNat + 1) / c.nr)

/-- R112, R114, R115, R117, R120 (d): from its entry each stage follows its line for exactly its duration, and then the next
stage begins at the target; R113, R116: Idle and Sustain hold. -/
def Obligations.EveryStageLastsItsDuration : Prop :=
  ∀ (c : EgCfg) (a : Word), c.wf = true → InUnit a →
    (∀ k, k < c.na →
      (egTick c)^[k] { stage := .attack, level := a, elapsed := 0, start := a } =
        { stage := .attack, level := u32 (s32 a + (ONE - s32 a) * k / c.na), elapsed := BitVec.ofNat 32 k,
          start := a }) ∧
    (egTick c)^[c.na] { stage := .attack, level := a, elapsed := 0, start := a } =
      { stage := .decay, level := u32 ONE, elapsed := 0, start := u32 ONE } ∧
    (∀ k, k < c.nd →
      (egTick c)^[k] { stage := .decay, level := u32 ONE, elapsed := 0, start := u32 ONE } =
        { stage := .decay, level := u32 (ONE - (ONE - c.sus) * k / c.nd), elapsed := BitVec.ofNat 32 k,
          start := u32 ONE }) ∧
    (egTick c)^[c.nd] { stage := .decay, level := u32 ONE, elapsed := 0, start := u32 ONE } =
      { stage := .sustain, level := u32 c.sus, elapsed := 0, start := u32 c.sus } ∧
    (∀ k, (egTick c)^[k] { stage := .sustain, level := u32 c.sus, elapsed := 0, start := a } =
      { stage := .sustain, level := u32 c.sus, elapsed := 0, start := a }) ∧
    (∀ k, k < c.nr →
      (egTick c)^[k] { stage := .release, level := a, elapsed := 0, start := a } =
        { stage := .release, level := u32 (s32 a - s32 a * k / c.nr), elapsed := BitVec.ofNat 32 k,
          start := a }) ∧
    (egTick c)^[c.nr] { stage := .release, level := a, elapsed := 0, start := a } =
      { stage := .idle, level := 0, elapsed := 0, start := 0 } ∧
    ∀ k, (egTick c)^[k] { stage := .idle, level := 0, elapsed := 0, start := a } =
      { stage := .idle, level := 0, elapsed := 0, start := a }

/-- R120 (a) to (c): a tick raises the level in Attack, lowers it in Decay and Release, and moves it by at most the ceiling
of `ONE / N`, `N` the duration of the stage the tick runs in; in Idle and Sustain it does not move. -/
def Obligations.LevelMovesByAtMostOneSlope : Prop :=
  ∀ (c : EgCfg) (e : Envelope), c.wf = true → e.Inv c → e.OnLine c →
    (e.stage = .attack →
      s32 e.level ≤ s32 (egTick c e).level ∧
        s32 (egTick c e).level ≤ s32 e.level + (ONE + c.na - 1) / c.na) ∧
    (e.stage = .decay →
      s32 (egTick c e).level ≤ s32 e.level ∧
        s32 e.level ≤ s32 (egTick c e).level + (ONE + c.nd - 1) / c.nd) ∧
    (e.stage = .release →
      s32 (egTick c e).level ≤ s32 e.level ∧
        s32 e.level ≤ s32 (egTick c e).level + (ONE + c.nr - 1) / c.nr) ∧
    (e.stage = .idle ∨ e.stage = .sustain → s32 (egTick c e).level = s32 e.level)

/-- R118: the envelope's output is the updated level scaled by the post-gain, between 0 and the level; with the post-gain
`ONE` it is the level; from Idle the first tick of an Attack returns `fmul(ONE // NA, PG)`. -/
def Obligations.EnvelopeOutputIsTheScaledLevel : Prop :=
  ∀ (c : EgCfg) (e : Envelope), c.wf = true → e.Inv c →
    egOut c e = fmul (s32 (egTick c e).level) c.pg ∧
    0 ≤ egOut c e ∧ egOut c e ≤ s32 (egTick c e).level ∧ s32 (egTick c e).level ≤ ONE ∧
    (c.pg = ONE → egOut c e = s32 (egTick c e).level) ∧
    (e = { stage := .attack, level := 0, elapsed := 0, start := 0 } → egOut c e = fmul (ONE / c.na) c.pg)

-- The LFOs and the selectors

/-- R131: the rate law of the LFOs, modulo `2^32`, with the values of the rule. -/
def Obligations.LfoIncrementFollowsTheRate : Prop :=
  (∀ (fs : Nat) (rate : Word), 1 ≤ fs → 0 ≤ s32 rate →
    (lfoInc fs (s32 rate)).toNat = rate.toNat * 256 / fs % 2 ^ 32 ∧
    (256 ≤ fs → (lfoInc fs (s32 rate)).toNat = rate.toNat * 256 / fs ∧ (lfoInc fs (s32 rate)).toNat < 2 ^ 31)) ∧
  (∀ fs : Nat, lfoInc fs 0 = 0) ∧
  (lfoInc 48000 ONE).toNat = 89478 ∧ (lfoInc 48000 (5 * ONE)).toNat = 447392 ∧
  (lfoInc 48000 (10 * ONE)).toNat = 894784

/-- R133, R134: the scalings of the tremolo and the vibrato wave and their ranges. -/
def Obligations.TremoloAndVibratoScaling : Prop :=
  (∀ w : Int, -ONE ≤ w → w ≤ ONE →
    trem w = (ONE + w) / 2 ∧ 0 ≤ trem w ∧ trem w ≤ ONE ∧
    vib w = ONE + fmul (ONE / 64) w ∧ ONE - ONE / 64 ≤ vib w ∧ vib w ≤ ONE + ONE / 64) ∧
  trem (-ONE) = 0 ∧ trem 0 = ONE / 2 ∧ trem ONE = ONE

/-- R136: the amplitude selector: its formula, its range, both end positions and the arithmetic mean in the middle. -/
def Obligations.AmplitudeSelectorCrossfades : Prop :=
  ∀ envA tr pos : Int, 0 ≤ envA → envA ≤ ONE → 0 ≤ tr → tr ≤ ONE → 0 ≤ pos → pos ≤ ONE →
    ampSel envA tr pos = envA + fmul pos (tr - envA) ∧
    0 ≤ ampSel envA tr pos ∧ ampSel envA tr pos ≤ ONE ∧
    ampSel envA tr 0 = envA ∧ ampSel envA tr ONE = tr ∧ ampSel envA tr (ONE / 2) = (envA + tr) / 2

/-- R137: the frequency selector: its formula, its range, its three positions, and that oscillator 1's phase stands still at
position 1 with the envelope Idle. -/
def Obligations.FrequencySelectorCrossfades : Prop :=
  ∀ envA vb pos : Int, 0 ≤ envA → envA ≤ ONE → ONE - ONE / 64 ≤ vb → vb ≤ ONE + ONE / 64 → 0 ≤ pos → pos ≤ 2 * ONE →
    (pos ≤ ONE → freqSel envA vb pos = ONE + fmul pos (envA - ONE)) ∧
    (ONE ≤ pos → freqSel envA vb pos = envA + fmul (pos - ONE) (vb - envA)) ∧
    0 ≤ freqSel envA vb pos ∧ freqSel envA vb pos ≤ ONE + ONE / 64 ∧
    freqSel envA vb 0 = ONE ∧ freqSel envA vb ONE = envA ∧ freqSel envA vb (2 * ONE) = vb ∧
    ∀ n : Word, incOsc1 n (freqSel 0 vb ONE) = 0

-- The generators and the oscillators

/-- R152: `SinQ` is bounded, odd, rises on the first quarter, and has the values of the rule. -/
def Obligations.SineIsBoundedOddAndRising : Prop :=
  (∀ p : Word, -ONE ≤ sinQ p ∧ sinQ p ≤ ONE ∧ sinQ (-p) = -sinQ p) ∧
  (∀ p q : Word, p.toNat ≤ q.toNat → q.toNat ≤ 2 ^ 30 → sinQ p ≤ sinQ q) ∧
  sinQ 0 = 0 ∧ sinQ 0x40000000 = ONE ∧ sinQ 0x80000000 = 0 ∧ sinQ 0xC0000000 = -ONE ∧
  sinQ 0x3FFFFFFF = 16777215 ∧ sinQ 0x40000001 = 16777215

/-- R168 (a): every waveform at every sharpness and phase stays in `-ONE .. ONE`. -/
def Obligations.WaveStaysInUnitRange : Prop :=
  ∀ (type : Waveform) (sharp : Int) (g : Generator), 0 ≤ sharp → sharp ≤ ONE → g.Inv →
    -ONE ≤ wave type sharp g ∧ wave type sharp g ≤ ONE

/-- R156 to R162, R166, R167: at sharpness 0 the waveforms are the sine (SawUp its negative, SampleHold the ramp); at
sharpness `ONE` types 0 to 6 are the shapes of their rules. -/
def Obligations.WaveEndsAreTheSineAndTheShape : Prop :=
  ∀ g : Generator, g.Inv →
    let p := g.phase.toNat
    let f : Int := (p / 256 : Nat)
    (wave .sawUp 0 g = -sinQ g.phase ∧ wave .sawDown 0 g = sinQ g.phase ∧ wave .square 0 g = sinQ g.phase ∧
      wave .triangle 0 g = sinQ g.phase ∧ wave .pulse 0 g = sinQ g.phase ∧ wave .bipolarPulse 0 g = sinQ g.phase ∧
      wave .sampleHold 0 g = s32 g.shPrev + fmul f (s32 g.shCur - s32 g.shPrev) ∧
      wave .modulatedSine 0 g = sinQ g.phase) ∧
    wave .sawUp ONE g = 2 * f - ONE ∧
    wave .sawDown ONE g = ONE - 2 * f ∧
    wave .square ONE g = (if p < 2 ^ 31 then ONE else -ONE) ∧
    (f < 2 ^ 22 → wave .triangle ONE g = 4 * f) ∧
    (2 ^ 22 ≤ f → f < 3 * 2 ^ 22 → wave .triangle ONE g = 2 * ONE - 4 * f) ∧
    (3 * 2 ^ 22 ≤ f → wave .triangle ONE g = 4 * f - 4 * ONE) ∧
    wave .pulse ONE g = (if 3 * 2 ^ 20 ≤ f ∧ f < 5 * 2 ^ 20 then ONE else 0) ∧
    wave .bipolarPulse ONE g =
      (if 3 * 2 ^ 20 ≤ f ∧ f < 5 * 2 ^ 20 then ONE else if 11 * 2 ^ 20 ≤ f ∧ f < 13 * 2 ^ 20 then -ONE else 0) ∧
    wave .sampleHold ONE g = s32 g.shCur

/-- R153: `XorShift32` is its three shifts, maps non-zero words to non-zero words, and has the check values of the rule. -/
def Obligations.XorShiftKeepsNonzero : Prop :=
  (∀ x : Word,
    let a := x ^^^ BitVec.ofNat 32 (x.toNat * 2 ^ 13)
    let b := a ^^^ BitVec.ofNat 32 (a.toNat / 2 ^ 17)
    xorShift32 x = b ^^^ BitVec.ofNat 32 (b.toNat * 2 ^ 5)) ∧
  (∀ x : Word, x ≠ 0 → xorShift32 x ≠ 0) ∧ xorShift32 1 = 0x00042021 ∧ xorShift32 0x13579BDF = 0xE5AD72E9

/-- R163, R164: `Advance` adds the increment modulo `2^32`; at a wrap, and only then, a new cycle begins. -/
def Obligations.AdvanceAccumulatesThePhase : Prop :=
  ∀ (g : Generator) (inc : Word),
    (g.phase.toNat + inc.toNat < 2 ^ 32 →
      (advance g inc).phase.toNat = g.phase.toNat + inc.toNat ∧
      advance g inc = { g with phase := (advance g inc).phase }) ∧
    (2 ^ 32 ≤ g.phase.toNat + inc.toNat →
      (advance g inc).phase.toNat = g.phase.toNat + inc.toNat - 2 ^ 32 ∧
      (advance g inc).lfsr = xorShift32 g.lfsr ∧ (advance g inc).shPrev = g.shCur ∧
      s32 (advance g inc).shCur = ((xorShift32 g.lfsr).toNat / 2 ^ 7 : Nat) - ONE) ∧
    advance g 0 = g

/-- R170: oscillator 1's increment is the note's times the frequency multiplier; unity and zero are exact. -/
def Obligations.FirstIncrementIsTheScaledNote : Prop :=
  ∀ (n : Word) (fm : Nat),
    (incOsc1 n fm).toNat = n.toNat * fm / 2 ^ 24 % 2 ^ 32 ∧ incOsc1 n ONE = n ∧ incOsc1 n 0 = 0

/-- R172: the increments of oscillators 2 and 3 are that of oscillator 1 in the same tick times the semitone ratio times the
octave range, modulo `2^32`: the identity and the octave are exact. -/
def Obligations.DerivedIncrementsAreMultiplicative : Prop :=
  (∀ (n : Word) (d : Int) (r : Nat), -12 ≤ d → d ≤ 12 →
    (incN n d r).toNat = n.toNat * (det30 d).toNat / 2 ^ 30 * r % 2 ^ 32) ∧
  (∀ n : Word, incN n 0 1 = n ∧ incN n 12 1 = n + n) ∧
  ∀ s : State,
    tickInc2 s = incN (tickInc1 s) (s32 s.act.interval2) (s32 s.act.range2) ∧
    tickInc3 s = incN (tickInc1 s) (s32 s.act.interval3) (s32 s.act.range3) ∧
    ∃ t, exec .tick s = .next t ∧ t.osc2 = advance s.osc2 (tickInc2 s) ∧ t.osc3 = advance s.osc3 (tickInc3 s)

/-- R150: the sine table, entry by entry, with the check values of the rule; R171: the semitone ratios, entry by entry, and
that both tables rise; R90: the seven note increments of the rule at 48000 Hz; R7, R8: durations and the constants derived
from the sample rate; R9: the fixed constants. -/
def Obligations.TablesHaveTheirCheckValues : Prop :=
  [0, 21, 57, 60, 69, 81, 127].map (fun n => (noteIncAt 48000 n).toNat) =
    [731558, 2460658, 19685267, 23409859, 39370534, 78741067, 1122405052] ∧
  (List.range 25).map (fun i => det30 ((i : Int) - 12)) =
    [536870912, 568794918, 602617224, 638450708, 676414963, 716636690, 759250125, 804397487, 852229450] ++
    [902905651, 956595215, 1013477326, 1073741824, 1137589835, 1205234447, 1276901417, 1352829926] ++
    [1433273380, 1518500250, 1608794974, 1704458901, 1805811301, 1913190429, 2026954652, 2147483648] ∧
  (∀ d : Int, -12 ≤ d → d < 12 → det30 d < det30 (d + 1)) ∧
  (List.range 65).map sinT =
    [0, 411733, 823219, 1234209, 1644455, 2053710, 2461729, 2868265, 3273072, 3675909, 4076531, 4474698] ++
    [4870169, 5262706, 5652074, 6038037, 6420363, 6798821, 7173184, 7543226, 7908725, 8269459, 8625213] ++
    [8975771, 9320922, 9660458, 9994176, 10321873, 10643353, 10958422, 11266890, 11568571, 11863283] ++
    [12150850, 12431097, 12703856, 12968963, 13226258, 13475586, 13716797, 13949745, 14174291, 14390298] ++
    [14597637, 14796184, 14985817, 15166424, 15337895, 15500126, 15653022, 15796488, 15930439, 16054795] ++
    [16169479, 16274424, 16369565, 16454846, 16530216, 16595628, 16651044, 16696429, 16731757, 16757007] ++
    [16772163, 16777216] ∧
  sinTable.length = 65 ∧ sinTable.sum = 691919568 ∧ sinT 32 = PAN_GAIN ∧ sinT 64 = ONE ∧
  (∀ i : Nat, i < 64 → sinT i < sinT (i + 1)) ∧
  (∀ c : Cfg, k20kInc c = (2 * (20000 * 2 ^ 32) + c.fs) / (2 * c.fs) ∧
    cutMinInc c = (2 * (c.cutMinHz * 2 ^ 32) + c.fs) / (2 * c.fs)) ∧
  k20kInc Cfg.ref = 1789569707 ∧ cutMinInc Cfg.ref = 1789570 ∧
  (∀ num den fs : Nat, 1 ≤ den → samplesOfSeconds num den fs = max 1 ((2 * (num * fs) + den) / (2 * den))) ∧
  ONE = 2 ^ 24 ∧ MOD_DEPTH = ONE / 2 ∧ VIB_DEPTH = ONE / 64 ∧ C427 = 2485513 ∧ PAN_GAIN = 11863283 ∧
  CUT_MAX_INC = 2 ^ 30 - 1

/-- R173: an oscillator's sample is its wave times its amplitude, the amplitude selector's output times its gain, and stays
within that amplitude. -/
def Obligations.OscillatorStaysWithinItsAmplitude : Prop :=
  (∀ (a : Int) (type : Waveform) (sharp : Int) (g : Generator),
    0 ≤ a → a ≤ ONE → 0 ≤ sharp → sharp ≤ ONE → g.Inv →
      oscOut a type sharp g = fmul a (wave type sharp g) ∧
      -a ≤ oscOut a type sharp g ∧ oscOut a type sharp g ≤ a) ∧
  ∀ s : State,
    tickO1 s = oscOut (fmul (tickAmp s) (s32 s.act.mul1)) (waveformOf s.act.type1) (s32 s.act.sharp1) s.osc1 ∧
    tickO2 s = oscOut (fmul (tickAmp s) (s32 s.act.mul2)) (waveformOf s.act.type2) (s32 s.act.sharp2) s.osc2

/-- R174: oscillator 3 has the amplitude of its gain when it is enabled; disabled it contributes exactly 0: neither its
registers nor its generator can be heard, and its generator still advances. -/
def Obligations.DisabledOscillatorThreeIsSilent : Prop :=
  (∀ s : State, s32 s.act.switch3 = 1 →
    tickO3 s =
      oscOut (fmul (tickAmp s) (s32 s.act.mul3)) (waveformOf s.act.type3) (s32 s.act.sharp3) s.osc3) ∧
  ∀ s : State, s32 s.act.switch3 = 0 →
    tickO3 s = 0 ∧
    ∀ (type sharp mul : Word) (g : Generator),
      ∃ t, exec .tick s = .next t ∧ t.osc3 = advance s.osc3 (tickInc3 s) ∧
        exec .tick { s with act := { s.act with type3 := type, sharp3 := sharp, mul3 := mul }, osc3 := g } =
          .next { t with act := { s.act with type3 := type, sharp3 := sharp, mul3 := mul },
                         osc3 := advance g (tickInc3 s) }

/-- R175, R182: the bank is the plain sum of the three oscillators and the filter input the bank plus the noise, both within
their bounds. -/
def Obligations.BankAndFilterInputAreBoundedSums : Prop :=
  ∀ s : State, s.Inv →
    tickBank s = tickO1 s + tickO2 s + tickO3 s ∧ -3 * ONE ≤ tickBank s ∧ tickBank s ≤ 3 * ONE ∧
    tickX s = tickBank s + tickNoise s ∧ -4 * ONE ≤ tickX s ∧ tickX s ≤ 4 * ONE

-- Noise, filter, output

/-- R180, R181: the chosen voice is scaled by its own gain; the other voice and its gain have no effect; the inputs are
clamped; the noise stays in `-ONE .. ONE`. -/
def Obligations.NoiseIsTheChosenVoice : Prop :=
  ∀ (white pink : Word) (gw gp : Int), 0 ≤ gw → gw ≤ ONE → 0 ≤ gp → gp ≤ ONE →
    noiseMux white pink 0 gw gp = fmul gw (max (-ONE) (min ONE (s32 white))) ∧
    noiseMux white pink 1 gw gp = fmul gp (max (-ONE) (min ONE (s32 pink))) ∧
    noiseMux white pink 0 ONE gp = max (-ONE) (min ONE (s32 white)) ∧
    noiseMux white pink 1 gw ONE = max (-ONE) (min ONE (s32 pink)) ∧
    noiseMux white pink 0 0 gp = 0 ∧ noiseMux white pink 1 gw 0 = 0 ∧
    ∀ sel : Int, -ONE ≤ noiseMux white pink sel gw gp ∧ noiseMux white pink sel gw gp ≤ ONE

/-- R191, R192: the cutoff increment is the scaled filter envelope between its clamps, and rises with that envelope; the
coefficient is its sine, lies in `0 .. ONE - 1` and rises with the cutoff; an Idle envelope leaves the floor; the values at
48000 Hz. -/
def Obligations.CutoffIsClampedAndMonotone : Prop :=
  (∀ (c : Cfg) (e e' f : Int), c.wf = true → 0 ≤ e → e ≤ e' → e' ≤ ONE → 0 ≤ f → f ≤ ONE →
    cutoffInc c e f = max (cutMinInc c) (min (2 ^ 30 - 1) (fmul e f * k20kInc c / 2 ^ 24)) ∧
    cutMinInc c ≤ cutoffInc c e f ∧ cutoffInc c e f ≤ 2 ^ 30 - 1 ∧
    cutoffInc c e f ≤ cutoffInc c e' f ∧ cutoffInc c 0 f = cutMinInc c ∧
    0 ≤ cutCoef (cutoffInc c e f) ∧ cutCoef (cutoffInc c e f) ≤ cutCoef (cutoffInc c e' f) ∧
    cutCoef (cutoffInc c e' f) ≤ ONE - 1) ∧
  (∀ ci : Int, cutCoef ci = sinQ (u32 ci)) ∧
  cutoffInc Cfg.ref ONE ONE = 1073741823 ∧ cutCoef 1073741823 = 16777215 ∧
  cutoffInc Cfg.ref (ONE / 4) ONE = 447392426 ∧ cutCoef 447392426 = 10212640 ∧
  cutoffInc Cfg.ref 0 ONE = 1789570 ∧ cutCoef 1789570 = 43918

/-- R194: the soft clipper is odd, bounded by `ONE`, the clamped cubic below 1.5 and flat from there on, and has the values
of the rule. -/
def Obligations.SoftClipIsOddAndBounded : Prop :=
  (∀ u : Int, softClip (-u) = -softClip u ∧ -ONE ≤ softClip u ∧ softClip u ≤ ONE ∧
    (3 * ONE / 2 ≤ u → softClip u = ONE) ∧
    (0 ≤ u → u < 3 * ONE / 2 → softClip u = max 0 (min ONE (u - fmul 2485513 (fmul (fmul u u) u))))) ∧
  softClip 0 = 0 ∧ softClip (ONE / 2) = 8077919 ∧ softClip ONE = 14291703 ∧ softClip (3 * ONE / 2 - 1) = ONE ∧
  softClip (8 * ONE) = ONE ∧ softClip (-ONE) = -14291703

/-- R195: each stage moves from its output toward its input by the coefficient, the first fed with the clipped input less
the feedback, and nothing saturates before the clipper; R196 (a): every stage output stays in `-ONE .. ONE`, for every input,
coefficient and resonance; R195: no command but `TICK` writes the filter; R193: the feedback gain is four times the
resonance, in `0 .. 4*ONE`, and a tick runs the ladder with it. -/
def Obligations.LadderStaysBounded : Prop :=
  (∀ (f : Filter) (x g k : Int), f.Inv → -4 * ONE ≤ x → x ≤ 4 * ONE → 0 ≤ g → g ≤ ONE → 0 ≤ k → k ≤ 4 * ONE →
    -8 * ONE ≤ x - fmul k (s32 f.y4) ∧ x - fmul k (s32 f.y4) ≤ 8 * ONE ∧
    (ladder f x g k).Inv ∧
    s32 (ladder f x g k).y1 = s32 f.y1 + fmul g (softClip (x - fmul k (s32 f.y4)) - s32 f.y1) ∧
    s32 (ladder f x g k).y2 = s32 f.y2 + fmul g (s32 (ladder f x g k).y1 - s32 f.y2) ∧
    s32 (ladder f x g k).y3 = s32 f.y3 + fmul g (s32 (ladder f x g k).y2 - s32 f.y3) ∧
    s32 (ladder f x g k).y4 = s32 f.y4 + fmul g (s32 (ladder f x g k).y3 - s32 f.y4)) ∧
  (∀ (i : Instr) (s t : State), exec i s = .next t → i ≠ .tick → t.filter = s.filter) ∧
  (∀ r : Int, resGain r = 4 * r ∧ (0 ≤ r → r ≤ ONE → 0 ≤ resGain r ∧ resGain r ≤ 4 * ONE)) ∧
  ∀ s : State, s.act.InRange →
    (0 ≤ 4 * s32 s.act.res ∧ 4 * s32 s.act.res ≤ 4 * ONE) ∧
    ∃ t, exec .tick s = .next t ∧ t.filter = ladder s.filter (tickX s) (tickCoef s) (4 * s32 s.act.res)

/-- R197: a tick sends the same word on both channels, `fmul(PAN_GAIN, y[4])` of the filter after the tick, within
`PAN_GAIN`. -/
def Obligations.BothChannelsCarryTheFilterOutput : Prop :=
  ∀ s : State, s.Inv → ∃ t o, exec .tick s = .next t ∧ t.out = s.out ++ [(o, o)] ∧
    s32 o = fmul 11863283 (s32 t.filter.y4) ∧ -11863283 ≤ s32 o ∧ s32 o ≤ 11863283

-- The laws of the functions the statements above are written in

/-- R155: the numbers of the waveforms; R156 to R162, R166: at every sharpness types 0 to 6 are the crossfade from their base
to their shape; R167: type 7 is the sine at its own modulated phase, at every sharpness; R156: all stay in `-ONE .. ONE` and
read nothing of the generator but its phase and its two samples. -/
def Obligations.WaveIsTheCrossfadeOfBaseAndShape : Prop :=
  (List.range 8).map (fun k => waveformOf (BitVec.ofNat 32 k)) =
    [.sawUp, .sawDown, .square, .triangle, .pulse, .bipolarPulse, .sampleHold, .modulatedSine] ∧
  ∀ (sharp : Int) (g : Generator), 0 ≤ sharp → sharp ≤ ONE → g.Inv →
    let p := g.phase.toNat
    let f : Int := (p / 2 ^ 8 : Nat)
    let b := sinQ g.phase
    let ramp := s32 g.shPrev + fmul f (s32 g.shCur - s32 g.shPrev)
    let dev := fmul (fmul sharp (ONE / 2)) b
    wave .sawUp sharp g = -b + fmul sharp (2 * f - ONE - -b) ∧
    wave .sawDown sharp g = b + fmul sharp (ONE - 2 * f - b) ∧
    wave .square sharp g = b + fmul sharp ((if p < 2 ^ 31 then ONE else -ONE) - b) ∧
    (f < 2 ^ 22 → wave .triangle sharp g = b + fmul sharp (4 * f - b)) ∧
    (2 ^ 22 ≤ f → f < 3 * 2 ^ 22 → wave .triangle sharp g = b + fmul sharp (2 * ONE - 4 * f - b)) ∧
    (3 * 2 ^ 22 ≤ f → wave .triangle sharp g = b + fmul sharp (4 * f - 4 * ONE - b)) ∧
    wave .pulse sharp g = b + fmul sharp ((if 3 * 2 ^ 20 ≤ f ∧ f < 5 * 2 ^ 20 then ONE else 0) - b) ∧
    wave .bipolarPulse sharp g =
      b + fmul sharp
        ((if 3 * 2 ^ 20 ≤ f ∧ f < 5 * 2 ^ 20 then ONE
          else if 11 * 2 ^ 20 ≤ f ∧ f < 13 * 2 ^ 20 then -ONE else 0) - b) ∧
    wave .sampleHold sharp g = ramp + fmul sharp (s32 g.shCur - ramp) ∧
    (∃ q : Word, (q.toNat : Int) = (p + dev * 2 ^ 8) % 2 ^ 32 ∧ wave .modulatedSine sharp g = sinQ q) ∧
    (-(ONE / 2) ≤ dev ∧ dev ≤ ONE / 2) ∧
    (sharp = 0 → wave .sawUp sharp g = -b ∧
      ∀ type, type ≠ .sawUp → type ≠ .sampleHold → wave type sharp g = b) ∧
    (g.shPrev = 0 → g.shCur = 0 → wave .sampleHold sharp g = 0) ∧
    ∀ type, (-ONE ≤ wave type sharp g ∧ wave type sharp g ≤ ONE) ∧
      ∀ l : Word, wave type sharp { g with lfsr := l } = wave type sharp g

/-- R90: the increment of every note at every sample rate, from its octave `o` and its semitone `k`; below 2^32 without
reduction from 12544 Hz on; the seven values of the rule; the table of an instance is this one at its sample rate. -/
def Obligations.NoteIncrementFollowsItsLaw : Prop :=
  (∀ (fs n : Nat) (o k : Int), 1 ≤ fs → n ≤ 127 → (n : Int) - 69 = 12 * o + k → 0 ≤ k → k < 12 →
    (-6 ≤ o ∧ o ≤ 4) ∧
    ∃ q : Int,
      (0 ≤ o + 2 → q = (2 * (440 * det30 k * 2 ^ (o + 2).toNat) + fs) / (2 * fs)) ∧
      (o + 2 < 0 → q = (2 * (440 * det30 k) + fs * 2 ^ (-(o + 2)).toNat) / (2 * (fs * 2 ^ (-(o + 2)).toNat))) ∧
      ((noteIncAt fs n).toNat : Int) = q % 2 ^ 32 ∧ (12544 ≤ fs → ((noteIncAt fs n).toNat : Int) = q)) ∧
  [0, 21, 57, 60, 69, 81, 127].map (fun n => (noteIncAt 48000 n).toNat) =
    [731558, 2460658, 19685267, 23409859, 39370534, 78741067, 1122405052] ∧
  ∀ (c : Cfg) (pitch : Fin 128), noteIncOf c pitch = noteIncAt c.fs pitch.val

/-- R151: `SinQ` interpolates its table on the first quarter, mirrors it on the second and negates both on the second half. -/
def Obligations.SineInterpolatesItsTable : Prop :=
  (∀ i f : Nat, i < 64 → f < 2 ^ 24 →
    sinQ (BitVec.ofNat 32 (i * 2 ^ 24 + f)) = sinT i + (sinT (i + 1) - sinT i) * f / 2 ^ 24) ∧
  sinQ (BitVec.ofNat 32 (2 ^ 30)) = sinT 64 ∧
  (∀ r : Nat, r ≤ 2 ^ 30 → sinQ (BitVec.ofNat 32 (2 ^ 31 - r)) = sinQ (BitVec.ofNat 32 r)) ∧
  ∀ r : Nat, r < 2 ^ 31 → sinQ (BitVec.ofNat 32 (2 ^ 31 + r)) = -sinQ (BitVec.ofNat 32 r)

/-- R13: the arithmetic primitives: saturation, the floored and saturated product, clamping, rounding, words and their signed
values, the crossfade (whose bounds the rule rests on the product's, so for a difference that is a fix). -/
def Obligations.PrimitivesFollowTheirLaws : Prop :=
  (∀ x : Int, (x < -2 ^ 31 → sat32 x = -2 ^ 31) ∧ (2 ^ 31 - 1 < x → sat32 x = 2 ^ 31 - 1) ∧
    (-2 ^ 31 ≤ x → x ≤ 2 ^ 31 - 1 → sat32 x = x)) ∧
  (∀ a b : Int, fmul a b = sat32 (a * b / 2 ^ 24)) ∧
  (∀ a b : Int, 0 ≤ a → a ≤ ONE → -2 ^ 31 ≤ b → b ≤ 2 ^ 31 - 1 →
    fmul a b = a * b / 2 ^ 24 ∧ min 0 b ≤ fmul a b ∧ fmul a b ≤ max 0 b ∧ fmul ONE b = b ∧ fmul 0 b = 0) ∧
  fmul 1 (-1) = -1 ∧ fmul 1 1 = 0 ∧
  (∀ x lo hi : Int, lo ≤ hi →
    (x < lo → clamp x lo hi = lo) ∧ (hi < x → clamp x lo hi = hi) ∧ (lo ≤ x → x ≤ hi → clamp x lo hi = x)) ∧
  (∀ num den : Int, 0 < den →
    rnd num den = (2 * num + den) / (2 * den) ∧
    2 * den * rnd num den ≤ 2 * num + den ∧ 2 * num + den < 2 * den * (rnd num den + 1)) ∧
  (∀ w : Word, s32 w = if (w.toNat : Int) < 2 ^ 31 then (w.toNat : Int) else w.toNat - 2 ^ 32) ∧
  (∀ x : Int, ((u32 x).toNat : Int) = x % 2 ^ 32) ∧
  ∀ a b t : Int, 0 ≤ t → t ≤ ONE → -2 ^ 31 ≤ b - a → b - a ≤ 2 ^ 31 - 1 →
    lerp a b t = a + fmul t (b - a) ∧ min a b ≤ lerp a b t ∧ lerp a b t ≤ max a b ∧
    lerp a b 0 = a ∧ lerp a b ONE = b
end

