-- ==== Sys2Proof/Laws/Decode.lean ====
section
/-! SUPPORT. The fields of a command word (30_encoding.md R65): a word assembled from four fields has those fields, and a
word is assembled from its own. -/

namespace Sys2Proof

theorem append_toNat {m n : Nat} (x : BitVec m) (y : BitVec n) : (x ++ y).toNat = x.toNat * 2 ^ n + y.toNat := by
  rw [BitVec.toNat_append, Nat.shiftLeft_eq, Nat.mul_comm, Nat.two_pow_add_eq_or_of_lt y.isLt]

theorem cmdWord_toNat (op a : Byte) (b : BitVec 16) (v : Word) :
    (cmdWord op a b v).toNat = ((op.toNat * 2 ^ 8 + a.toNat) * 2 ^ 16 + b.toNat) * 2 ^ 32 + v.toNat := by
  simp only [cmdWord, append_toNat]

@[simp] theorem opField_cmdWord (op a : Byte) (b : BitVec 16) (v : Word) : opField (cmdWord op a b v) = op := by
  apply BitVec.eq_of_toNat_eq
  have := op.isLt
  have := a.isLt
  have := b.isLt
  have := v.isLt
  rw [opField, BitVec.extractLsb'_toNat, cmdWord_toNat, Nat.shiftRight_eq_div_pow]
  omega

@[simp] theorem aField_cmdWord (op a : Byte) (b : BitVec 16) (v : Word) : aField (cmdWord op a b v) = a := by
  apply BitVec.eq_of_toNat_eq
  have := a.isLt
  have := b.isLt
  have := v.isLt
  rw [aField, BitVec.extractLsb'_toNat, cmdWord_toNat, Nat.shiftRight_eq_div_pow]
  omega

@[simp] theorem bField_cmdWord (op a : Byte) (b : BitVec 16) (v : Word) : bField (cmdWord op a b v) = b := by
  apply BitVec.eq_of_toNat_eq
  have := b.isLt
  have := v.isLt
  rw [bField, BitVec.extractLsb'_toNat, cmdWord_toNat, Nat.shiftRight_eq_div_pow]
  omega

@[simp] theorem vField_cmdWord (op a : Byte) (b : BitVec 16) (v : Word) : vField (cmdWord op a b v) = v := by
  apply BitVec.eq_of_toNat_eq
  have := v.isLt
  rw [vField, BitVec.extractLsb'_toNat, cmdWord_toNat, Nat.shiftRight_eq_div_pow]
  omega

/-- A word is assembled from its own fields. -/
theorem cmdWord_fields (w : CmdWord) : cmdWord (opField w) (aField w) (bField w) (vField w) = w := by
  apply BitVec.eq_of_toNat_eq
  have := w.isLt
  rw [cmdWord_toNat]
  simp only [opField, aField, bField, vField, BitVec.extractLsb'_toNat, Nat.shiftRight_eq_div_pow]
  omega

/-- Bit 0 of the gate field is the gate (R67). -/
@[simp] theorem gateField_bit (gate : Bool) : (gateField gate)[0] = gate := by
  cases gate <;> rfl

end Sys2Proof
end

