-- ==== Sys2Proof/Laws/Fix.lean ====
section
/-! SUPPORT. What the primitives of 00_scope.md R13 do: the narrowing of an exact result into a word and back, clamping,
and the fix product by a factor in `0 .. ONE`, on which every bound of the datapath rests. -/

namespace Sys2Proof.Machine

theorem s32_bounds (w : Word) : -2147483648 ≤ s32 w ∧ s32 w ≤ 2147483647 := by
  have h1 := BitVec.le_toInt w
  have h2 := BitVec.toInt_lt (x := w)
  norm_num at h1 h2
  simp only [s32]
  omega

/-- Narrowing into 32 bits loses nothing in the signed range. -/
theorem s32_u32 {x : Int} (h1 : -2147483648 ≤ x) (h2 : x ≤ 2147483647) : s32 (u32 x) = x := by
  simp only [s32, u32, BitVec.toInt_ofInt, Int.bmod_def]
  norm_num
  omega

/-- Storing the signed value of a word gives the word back. -/
@[simp] theorem u32_s32 (w : Word) : u32 (s32 w) = w := BitVec.ofInt_toInt

@[simp] theorem s32_zero : s32 0#32 = 0 := by decide

@[simp] theorem u32_zero : u32 0 = 0#32 := by decide

/-- Words with the same signed value are the same word. -/
theorem s32_injective {w v : Word} (h : s32 w = s32 v) : w = v := BitVec.eq_of_toInt_eq h

/-- The word of an integer has its remainder modulo `2^32` as its unsigned value. -/
theorem toNat_u32 (x : Int) : ((u32 x).toNat : Int) = x % 4294967296 := by
  rw [u32, BitVec.toNat_ofInt]
  norm_num
  omega

/-- A non-negative signed value is the unsigned one. -/
theorem toNat_of_s32_nonneg {w : Word} (h : 0 ≤ s32 w) : (w.toNat : Int) = s32 w := by
  simp only [s32, BitVec.toInt_eq_toNat_cond] at h ⊢
  have := w.isLt
  split <;> omega

theorem clamp_eq_max_min {x lo hi : Int} (h : lo ≤ hi) : clamp x lo hi = max lo (min hi x) := by
  unfold clamp
  split
  · omega
  · split <;> omega

theorem clamp_bounds {lo hi : Int} (x : Int) (h : lo ≤ hi) : lo ≤ clamp x lo hi ∧ clamp x lo hi ≤ hi := by
  rw [clamp_eq_max_min h]
  omega

theorem clamp_of_mem {x lo hi : Int} (h1 : lo ≤ x) (h2 : x ≤ hi) : clamp x lo hi = x := by
  rw [clamp_eq_max_min (h1.trans h2)]
  omega

theorem sat32_of_mem {x : Int} (h1 : -2147483648 ≤ x) (h2 : x ≤ 2147483647) : sat32 x = x := by
  unfold sat32
  omega

@[simp] theorem fmul_zero_left (b : Int) : fmul 0 b = 0 := by
  simp [fmul, sat32]

@[simp] theorem fmul_zero_right (a : Int) : fmul a 0 = 0 := by
  simp [fmul, sat32]

theorem mul_div_one_nonneg {a b : Int} (ha : 0 ≤ a) (ha1 : a ≤ ONE) (hb : 0 ≤ b) :
    0 ≤ a * b / 16777216 ∧ a * b / 16777216 ≤ b := by
  have h : a * b ≤ 16777216 * b := Int.mul_le_mul_of_nonneg_right ha1 hb
  have h0 : 0 ≤ a * b := Int.mul_nonneg ha hb
  omega

theorem mul_div_one_nonpos {a b : Int} (ha : 0 ≤ a) (ha1 : a ≤ ONE) (hb : b ≤ 0) :
    b ≤ a * b / 16777216 ∧ a * b / 16777216 ≤ 0 := by
  have h1 : 16777216 * b ≤ a * b := Int.mul_le_mul_of_nonpos_right ha1 hb
  have h2 : a * b ≤ 0 := Int.mul_nonpos_of_nonneg_of_nonpos ha hb
  omega

/-- A factor in `0 .. ONE` shrinks a non-negative fix and never saturates (R13). -/
theorem fmul_nonneg {a b : Int} (ha : 0 ≤ a) (ha1 : a ≤ ONE) (hb : 0 ≤ b) (hb1 : b ≤ 2147483647) :
    0 ≤ fmul a b ∧ fmul a b ≤ b := by
  have h := mul_div_one_nonneg ha ha1 hb
  unfold fmul
  rw [sat32_of_mem (by omega) (by omega)]
  exact h

/-- A factor in `0 .. ONE` shrinks a non-positive fix and never saturates (R13). -/
theorem fmul_nonpos {a b : Int} (ha : 0 ≤ a) (ha1 : a ≤ ONE) (hb : b ≤ 0) (hb1 : -2147483648 ≤ b) :
    b ≤ fmul a b ∧ fmul a b ≤ 0 := by
  have h := mul_div_one_nonpos ha ha1 hb
  unfold fmul
  rw [sat32_of_mem (by omega) (by omega)]
  exact h

theorem fmul_one_left {b : Int} (h1 : -2147483648 ≤ b) (h2 : b ≤ 2147483647) : fmul ONE b = b := by
  unfold fmul
  rw [Int.mul_ediv_cancel_left b (by norm_num)]
  exact sat32_of_mem h1 h2

/-- Whatever the factor, the product by a factor in `0 .. ONE` stays in any range that holds 0 and the other operand. -/
theorem fmul_mem {a b lo hi : Int} (ha : 0 ≤ a) (ha1 : a ≤ ONE) (h0 : lo ≤ 0) (h1 : 0 ≤ hi) (hlo : lo ≤ b)
    (hhi : b ≤ hi) (hl : -2147483648 ≤ lo) (hh : hi ≤ 2147483647) : lo ≤ fmul a b ∧ fmul a b ≤ hi := by
  rcases Int.le_total 0 b with hb | hb
  · have := fmul_nonneg ha ha1 hb (by omega)
    omega
  · have := fmul_nonpos ha ha1 hb (by omega)
    omega

/-- The crossfade lies between its two sources (R13). -/
theorem lerp_mem {a b t lo hi : Int} (ht : 0 ≤ t) (ht1 : t ≤ ONE) (ha : lo ≤ a) (ha1 : a ≤ hi) (hb : lo ≤ b)
    (hb1 : b ≤ hi) (hw : hi - lo ≤ 2147483647) : lo ≤ lerp a b t ∧ lerp a b t ≤ hi := by
  unfold lerp
  rcases Int.le_total 0 (b - a) with h | h
  · have := fmul_nonneg ht ht1 h (by omega)
    omega
  · have := fmul_nonpos ht ht1 h (by omega)
    omega

@[simp] theorem lerp_zero (a b : Int) : lerp a b 0 = a := by
  simp [lerp]

theorem lerp_one {a b : Int} (h1 : -2147483648 ≤ b - a) (h2 : b - a ≤ 2147483647) : lerp a b ONE = b := by
  unfold lerp
  rw [fmul_one_left h1 h2]
  omega

end Sys2Proof.Machine
end

