-- ==== Sys2Proof/Laws/Envelope.lean ====
section
/-! SUPPORT. What the gate transitions and the envelope tick do (41_envelope.md R110 to R119). -/

namespace Sys2Proof.Machine

@[simp] theorem Envelope.enter_level (e : Envelope) (st : Stage) : (e.enter st).level = e.level := rfl

@[simp] theorem Envelope.enter_start (e : Envelope) (st : Stage) : (e.enter st).start = e.level := rfl

@[simp] theorem Envelope.enter_stage (e : Envelope) (st : Stage) : (e.enter st).stage = st := rfl

@[simp] theorem Envelope.enter_elapsed (e : Envelope) (st : Stage) : (e.enter st).elapsed = 0 := rfl

@[simp] theorem Envelope.gateOn_level (e : Envelope) : e.gateOn.level = e.level := rfl

@[simp] theorem Envelope.gateOff_level (e : Envelope) : e.gateOff.level = e.level := by
  unfold Envelope.gateOff
  split <;> rfl

/-- Everything `GateOff` can do (R111, R119). -/
theorem Envelope.gateOff_cases (e : Envelope) :
    ((e.stage = .idle ∨ e.stage = .release) ∧ e.gateOff = e) ∨
    ((e.stage = .attack ∨ e.stage = .decay ∨ e.stage = .sustain) ∧ e.gateOff = e.enter .release) := by
  rcases e with ⟨st, l, el, a⟩
  cases st <;> simp [Envelope.gateOff]

/-- Everything a tick can do to an envelope: the table of R119. -/
theorem egTick_cases (c : EgCfg) (e : Envelope) :
    (e.stage = .idle ∧ egTick c e = { e with level := 0 }) ∨
    (e.stage = .attack ∧ c.na ≤ e.elapsed.toNat + 1 ∧ egTick c e = Envelope.arrive .decay ONE) ∨
    (e.stage = .attack ∧ e.elapsed.toNat + 1 < c.na ∧
      egTick c e =
        { e with
          elapsed := BitVec.ofNat 32 (e.elapsed.toNat + 1)
          level := u32 (rising (s32 e.start) ONE (e.elapsed.toNat + 1) c.na) }) ∨
    (e.stage = .decay ∧ c.nd ≤ e.elapsed.toNat + 1 ∧ egTick c e = Envelope.arrive .sustain c.sus) ∨
    (e.stage = .decay ∧ e.elapsed.toNat + 1 < c.nd ∧
      egTick c e =
        { e with
          elapsed := BitVec.ofNat 32 (e.elapsed.toNat + 1)
          level := u32 (falling (s32 e.start) c.sus (e.elapsed.toNat + 1) c.nd) }) ∨
    (e.stage = .sustain ∧ egTick c e = { e with level := u32 c.sus }) ∨
    (e.stage = .release ∧ c.nr ≤ e.elapsed.toNat + 1 ∧ egTick c e = Envelope.arrive .idle 0) ∨
    (e.stage = .release ∧ e.elapsed.toNat + 1 < c.nr ∧
      egTick c e =
        { e with
          elapsed := BitVec.ofNat 32 (e.elapsed.toNat + 1)
          level := u32 (falling (s32 e.start) 0 (e.elapsed.toNat + 1) c.nr) }) := by
  rcases e with ⟨st, l, el, a⟩
  cases st
  · simp [egTick]
  · by_cases h : c.na ≤ el.toNat + 1
    · simp [egTick, attackTick, h]
    · simp [egTick, attackTick, h, Nat.lt_of_not_le h]
  · by_cases h : c.nd ≤ el.toNat + 1
    · simp [egTick, decayTick, h]
    · simp [egTick, decayTick, h, Nat.lt_of_not_le h]
  · simp [egTick]
  · by_cases h : c.nr ≤ el.toNat + 1
    · simp [egTick, releaseTick, h]
    · simp [egTick, releaseTick, h, Nat.lt_of_not_le h]

/-- The rising law stays between the start and the target (R112). -/
theorem rising_mem {a t : Int} {e n : Nat} (hat : a ≤ t) (he : e ≤ n) (hn : 0 < n) :
    a ≤ rising a t e n ∧ rising a t e n ≤ t := by
  have hd : 0 ≤ t - a := by omega
  have hn' : (0 : Int) < n := by exact_mod_cast hn
  have h1 : 0 ≤ (t - a) * e / n := Int.ediv_nonneg (Int.mul_nonneg hd (Int.natCast_nonneg e)) hn'.le
  have h2 : (t - a) * e / n ≤ t - a := by
    refine (Int.ediv_le_ediv hn' (Int.mul_le_mul_of_nonneg_left (Int.ofNat_le.2 he) hd)).trans ?_
    rw [Int.mul_ediv_cancel _ hn'.ne']
  unfold rising
  omega

/-- The falling law stays between the target and the start (R112). -/
theorem falling_mem {a t : Int} {e n : Nat} (hat : t ≤ a) (he : e ≤ n) (hn : 0 < n) :
    t ≤ falling a t e n ∧ falling a t e n ≤ a := by
  have h := rising_mem hat he hn
  unfold rising at h
  unfold falling
  omega

end Sys2Proof.Machine
end

