-- ==== Sys2Proof/Laws/Generator.lean ====
section
/-! SUPPORT. What the sine table, `SinQ` and `Advance` do (43_oscillator.md R150 to R152, R163, R164). -/

namespace Sys2Proof.Machine

/-- Consecutive entries of `SIN_T` rise, and all lie in `0 .. ONE` (R150). -/
theorem sinT_step : ∀ i : Fin 64, 0 ≤ sinT i ∧ sinT i ≤ sinT (i + 1) ∧ sinT (i + 1) ≤ ONE := by decide

/-- Linear interpolation stays between its two ends. -/
theorem interpolation_mem {a b : Int} {f : Nat} (hab : a ≤ b) (hf : f < 16777216) :
    a ≤ a + ((b - a) * f) / 16777216 ∧ a + ((b - a) * f) / 16777216 ≤ b := by
  have hd : 0 ≤ b - a := by omega
  have h1 : 0 ≤ (b - a) * f := Int.mul_nonneg hd (Int.natCast_nonneg f)
  have h2 : (b - a) * f ≤ (b - a) * 16777216 := Int.mul_le_mul_of_nonneg_left (by omega) hd
  omega

/-- The first quarter of the sine lies in `0 .. ONE` (R152). -/
theorem sinQuarter_mem {r : Nat} (h : r ≤ 1073741824) : 0 ≤ sinQuarter r ∧ sinQuarter r ≤ ONE := by
  unfold sinQuarter
  simp only
  split
  · decide
  · have hi : r / 16777216 < 64 := by omega
    have ht := sinT_step ⟨r / 16777216, hi⟩
    have := interpolation_mem (f := r % 16777216) ht.2.1 (Nat.mod_lt _ (by norm_num))
    simp only [ONE] at ht this ⊢
    omega

/-- `-ONE <= SinQ(p) <= ONE` (R152). -/
theorem sinQ_mem (p : Word) : -ONE ≤ sinQ p ∧ sinQ p ≤ ONE := by
  have hr : (if p.toNat / 1073741824 % 2 = 1 then 1073741824 - p.toNat % 1073741824 else p.toNat % 1073741824)
      ≤ 1073741824 := by
    split <;> omega
  have h := sinQuarter_mem hr
  unfold sinQ
  simp only [ONE] at h ⊢
  split <;> omega

/-- `phi` is a fraction of the cycle, `0 .. ONE - 1` (R154). -/
theorem phi_mem (p : Word) : 0 ≤ phi p ∧ phi p ≤ ONE - 1 := by
  have := p.isLt
  simp only [phi, ONE]
  omega

/-- Everything `Advance` can do: no wrap and only the phase moves, or a wrap and a new cycle (R163, R164). -/
theorem advance_cases (g : Generator) (inc : Word) :
    (g.phase.toNat + inc.toNat < 4294967296 ∧ advance g inc = { g with phase := g.phase + inc }) ∨
    (4294967296 ≤ g.phase.toNat + inc.toNat ∧
      advance g inc = { newCycle g with phase := g.phase + inc }) := by
  unfold advance
  split
  · exact .inr ⟨‹_›, rfl⟩
  · exact .inl ⟨by omega, rfl⟩

/-- The phase after `Advance` is the sum modulo `2^32`, wrapped or not (R163). -/
@[simp] theorem advance_phase (g : Generator) (inc : Word) : (advance g inc).phase = g.phase + inc := by
  rcases advance_cases g inc with ⟨-, h⟩ | ⟨-, h⟩ <;> rw [h]

end Sys2Proof.Machine
end

