-- ==== Sys2Proof/Laws/FilterOutput.lean ====
section
/-! SUPPORT. What the noise inputs, the soft clipper and one ladder pole do (44_filter_output.md R180, R194, R195). -/

namespace Sys2Proof.Machine

/-- A noise input is clamped to `-ONE .. ONE` (R180). -/
theorem noiseSample_mem (w : Word) : -ONE ≤ noiseSample w ∧ noiseSample w ≤ ONE :=
  clamp_bounds _ (by norm_num)

theorem softClipAbs_mem (m : Int) : 0 ≤ softClipAbs m ∧ softClipAbs m ≤ ONE := by
  unfold softClipAbs
  split
  · norm_num
  · exact clamp_bounds _ (by norm_num)

@[simp] theorem softClip_zero : softClip 0 = 0 := by decide

/-- One pole moves its output toward its input and stays between the two (R195, R196 a). -/
theorem poleStep_mem {y : Word} {input g : Int} (hg : 0 ≤ g) (hg1 : g ≤ ONE) (hy : -ONE ≤ s32 y) (hy1 : s32 y ≤ ONE)
    (hi : -ONE ≤ input) (hi1 : input ≤ ONE) :
    -ONE ≤ s32 (poleStep y input g) ∧ s32 (poleStep y input g) ≤ ONE := by
  have h := lerp_mem hg hg1 hy hy1 hi hi1 (by norm_num)
  unfold poleStep
  simp only [lerp, ONE] at h ⊢
  rw [s32_u32 (by omega) (by omega)]
  exact h

end Sys2Proof.Machine
end

