-- ==== Sys2Proof/Laws/Params.lean ====
section
/-! SUPPORT. The register file (10_state.md R20 to R22): reading after a write, the address map, and that a clamped value is
in its register's range and fits in the word. -/

namespace Sys2Proof.Machine

@[simp] theorem Params.get_set_self (f : Params) (p : Param) (w : Word) : (f.set p w).get p = w := by
  cases p <;> rfl

theorem Params.get_set_of_ne (f : Params) {p q : Param} (w : Word) (h : q ≠ p) : (f.set p w).get q = f.get q := by
  cases p <;> cases q <;> first | rfl | exact absurd rfl h

/-- Two files with the same registers are the same file. -/
theorem Params.ext_get {f g : Params} (h : ∀ p, f.get p = g.get p) : f = g := by
  cases f
  cases g
  simp only [Params.mk.injEq]
  exact ⟨h .type1, h .sharp1, h .mul1, h .type2, h .sharp2, h .mul2, h .interval2, h .range2, h .switch3, h .type3,
    h .sharp3, h .mul3, h .interval3, h .range3, h .cutoffFact, h .res, h .voiceSel, h .mulWhiteNoise,
    h .mulPinkNoise, h .lfotremolo, h .selectorAdsrtremolo, h .lfovibrato, h .selectorAdsrvibrato⟩

theorem Params.set_get_self (f : Params) (p : Param) : f.set p (f.get p) = f := by
  cases p <;> rfl

@[simp] theorem Params.reset_get (p : Param) : Params.reset.get p = p.resetWord := by
  cases p <;> rfl

theorem Param.lo_le_hi (p : Param) : p.lo ≤ p.hi := by
  cases p <;> decide

/-- Every legal range lies inside the signed 32-bit range. -/
theorem Param.range_fits (p : Param) : -2147483648 ≤ p.lo ∧ p.hi ≤ 2147483647 := by
  cases p <;> decide

theorem Param.clampP_mem (p : Param) (v : Int) : p.lo ≤ p.clampP v ∧ p.clampP v ≤ p.hi :=
  clamp_bounds v p.lo_le_hi

/-- A clamped value survives being stored in a word. -/
@[simp] theorem Param.s32_u32_clampP (p : Param) (v : Int) : s32 (u32 (p.clampP v)) = p.clampP v :=
  s32_u32 (p.range_fits.1.trans (p.clampP_mem v).1) ((p.clampP_mem v).2.trans p.range_fits.2)

theorem Param.ofAddr_eq_none {a : Byte} (h : 23 ≤ a.toNat) : Param.ofAddr a = none :=
  List.getElem?_eq_none (by simpa [Param.all] using h)

/-- Every address up to 22 holds a register. -/
theorem Param.ofAddr_isSome {a : Byte} (h : a.toNat ≤ 22) : ∃ p, Param.ofAddr a = some p := by
  have hl : a.toNat < Param.all.length := by
    simp [Param.all]
    omega
  exact ⟨_, List.getElem?_eq_getElem hl⟩

end Sys2Proof.Machine
end

