-- ==== Sys2Proof/Laws/PerInstr.lean ====
section
/-! SUPPORT. What holds of every command as syntax, one lemma per constructor: the word the encoder gives carries the
command's opcode of 30_encoding.md R66. -/

namespace Sys2Proof.Laws.EncodedOpcode

/-- The opcode field of a command's word is the command's opcode (R65, R66). -/
def Statement (i : Instr) : Prop := opField (encode i) = opcode i

theorem nop : Statement .nop := opField_cmdWord _ _ _ _

theorem setp (a : Byte) (v : Word) : Statement (.setp a v) := opField_cmdWord _ _ _ _

theorem getp (a : Byte) : Statement (.getp a) := opField_cmdWord _ _ _ _

theorem note (a : Byte) (gate : Bool) (v : Word) : Statement (.note a gate v) := opField_cmdWord _ _ _ _

theorem blk : Statement .blk := opField_cmdWord _ _ _ _

theorem tick : Statement .tick := opField_cmdWord _ _ _ _

end Sys2Proof.Laws.EncodedOpcode
end

