-- ==== Sys2Proof/Laws/State.lean ====
section
/-! SUPPORT. The small lemmas of the state's operations: one per field per update, so that no proof unfolds a record update,
and for each shared operation what it can answer. -/

namespace Sys2Proof.Machine

-- respond

@[simp] theorem State.respond_cfg (s : State) (w : Word) : (s.respond w).cfg = s.cfg := rfl

@[simp] theorem State.respond_pend (s : State) (w : Word) : (s.respond w).pend = s.pend := rfl

@[simp] theorem State.respond_act (s : State) (w : Word) : (s.respond w).act = s.act := rfl

@[simp] theorem State.respond_latch (s : State) (w : Word) : (s.respond w).latch = s.latch := rfl

@[simp] theorem State.respond_note (s : State) (w : Word) : (s.respond w).note = s.note := rfl

@[simp] theorem State.respond_ega (s : State) (w : Word) : (s.respond w).ega = s.ega := rfl

@[simp] theorem State.respond_egf (s : State) (w : Word) : (s.respond w).egf = s.egf := rfl

@[simp] theorem State.respond_osc1 (s : State) (w : Word) : (s.respond w).osc1 = s.osc1 := rfl

@[simp] theorem State.respond_osc2 (s : State) (w : Word) : (s.respond w).osc2 = s.osc2 := rfl

@[simp] theorem State.respond_osc3 (s : State) (w : Word) : (s.respond w).osc3 = s.osc3 := rfl

@[simp] theorem State.respond_lfoT (s : State) (w : Word) : (s.respond w).lfoT = s.lfoT := rfl

@[simp] theorem State.respond_lfoV (s : State) (w : Word) : (s.respond w).lfoV = s.lfoV := rfl

@[simp] theorem State.respond_filter (s : State) (w : Word) : (s.respond w).filter = s.filter := rfl

@[simp] theorem State.respond_input (s : State) (w : Word) : (s.respond w).input = s.input := rfl

@[simp] theorem State.respond_whiteIn (s : State) (w : Word) : (s.respond w).whiteIn = s.whiteIn := rfl

@[simp] theorem State.respond_pinkIn (s : State) (w : Word) : (s.respond w).pinkIn = s.pinkIn := rfl

@[simp] theorem State.respond_rsp (s : State) (w : Word) : (s.respond w).rsp = s.rsp ++ [w] := rfl

@[simp] theorem State.respond_out (s : State) (w : Word) : (s.respond w).out = s.out := rfl

-- emit

@[simp] theorem State.emit_cfg (s : State) (l r : Word) : (s.emit l r).cfg = s.cfg := rfl

@[simp] theorem State.emit_pend (s : State) (l r : Word) : (s.emit l r).pend = s.pend := rfl

@[simp] theorem State.emit_act (s : State) (l r : Word) : (s.emit l r).act = s.act := rfl

@[simp] theorem State.emit_latch (s : State) (l r : Word) : (s.emit l r).latch = s.latch := rfl

@[simp] theorem State.emit_note (s : State) (l r : Word) : (s.emit l r).note = s.note := rfl

@[simp] theorem State.emit_ega (s : State) (l r : Word) : (s.emit l r).ega = s.ega := rfl

@[simp] theorem State.emit_egf (s : State) (l r : Word) : (s.emit l r).egf = s.egf := rfl

@[simp] theorem State.emit_osc1 (s : State) (l r : Word) : (s.emit l r).osc1 = s.osc1 := rfl

@[simp] theorem State.emit_osc2 (s : State) (l r : Word) : (s.emit l r).osc2 = s.osc2 := rfl

@[simp] theorem State.emit_osc3 (s : State) (l r : Word) : (s.emit l r).osc3 = s.osc3 := rfl

@[simp] theorem State.emit_lfoT (s : State) (l r : Word) : (s.emit l r).lfoT = s.lfoT := rfl

@[simp] theorem State.emit_lfoV (s : State) (l r : Word) : (s.emit l r).lfoV = s.lfoV := rfl

@[simp] theorem State.emit_filter (s : State) (l r : Word) : (s.emit l r).filter = s.filter := rfl

@[simp] theorem State.emit_input (s : State) (l r : Word) : (s.emit l r).input = s.input := rfl

@[simp] theorem State.emit_whiteIn (s : State) (l r : Word) : (s.emit l r).whiteIn = s.whiteIn := rfl

@[simp] theorem State.emit_pinkIn (s : State) (l r : Word) : (s.emit l r).pinkIn = s.pinkIn := rfl

@[simp] theorem State.emit_rsp (s : State) (l r : Word) : (s.emit l r).rsp = s.rsp := rfl

@[simp] theorem State.emit_out (s : State) (l r : Word) : (s.emit l r).out = s.out ++ [(l, r)] := rfl

-- publish

@[simp] theorem State.publish_cfg (s : State) : (s.publish).cfg = s.cfg := rfl

@[simp] theorem State.publish_pend (s : State) : (s.publish).pend = s.pend := rfl

@[simp] theorem State.publish_act (s : State) : (s.publish).act = s.pend := rfl

@[simp] theorem State.publish_latch (s : State) : (s.publish).latch = s.latch := rfl

@[simp] theorem State.publish_note (s : State) : (s.publish).note = s.note := rfl

@[simp] theorem State.publish_ega (s : State) : (s.publish).ega = s.ega := rfl

@[simp] theorem State.publish_egf (s : State) : (s.publish).egf = s.egf := rfl

@[simp] theorem State.publish_osc1 (s : State) : (s.publish).osc1 = s.osc1 := rfl

@[simp] theorem State.publish_osc2 (s : State) : (s.publish).osc2 = s.osc2 := rfl

@[simp] theorem State.publish_osc3 (s : State) : (s.publish).osc3 = s.osc3 := rfl

@[simp] theorem State.publish_lfoT (s : State) : (s.publish).lfoT = s.lfoT := rfl

@[simp] theorem State.publish_lfoV (s : State) : (s.publish).lfoV = s.lfoV := rfl

@[simp] theorem State.publish_filter (s : State) : (s.publish).filter = s.filter := rfl

@[simp] theorem State.publish_input (s : State) : (s.publish).input = s.input := rfl

@[simp] theorem State.publish_whiteIn (s : State) : (s.publish).whiteIn = s.whiteIn := rfl

@[simp] theorem State.publish_pinkIn (s : State) : (s.publish).pinkIn = s.pinkIn := rfl

@[simp] theorem State.publish_rsp (s : State) : (s.publish).rsp = s.rsp := rfl

@[simp] theorem State.publish_out (s : State) : (s.publish).out = s.out := rfl

-- takeNote

@[simp] theorem State.takeNote_cfg (s : State) : (s.takeNote).cfg = s.cfg := rfl

@[simp] theorem State.takeNote_pend (s : State) : (s.takeNote).pend = s.pend := rfl

@[simp] theorem State.takeNote_act (s : State) : (s.takeNote).act = s.act := rfl

@[simp] theorem State.takeNote_latch (s : State) : (s.takeNote).latch = s.latch.cleared := rfl

@[simp] theorem State.takeNote_note (s : State) : (s.takeNote).note = 
    { pitch := s.latch.pitch, vel := s.latch.vel, gate := s.latch.gate, noteInc := noteIncOf s.cfg s.latch.pitch } :=
  rfl

@[simp] theorem State.takeNote_ega (s : State) : (s.takeNote).ega = s.ega.takeGates s.latch := rfl

@[simp] theorem State.takeNote_egf (s : State) : (s.takeNote).egf = s.egf.takeGates s.latch := rfl

@[simp] theorem State.takeNote_osc1 (s : State) : (s.takeNote).osc1 = s.osc1 := rfl

@[simp] theorem State.takeNote_osc2 (s : State) : (s.takeNote).osc2 = s.osc2 := rfl

@[simp] theorem State.takeNote_osc3 (s : State) : (s.takeNote).osc3 = s.osc3 := rfl

@[simp] theorem State.takeNote_lfoT (s : State) : (s.takeNote).lfoT = s.lfoT := rfl

@[simp] theorem State.takeNote_lfoV (s : State) : (s.takeNote).lfoV = s.lfoV := rfl

@[simp] theorem State.takeNote_filter (s : State) : (s.takeNote).filter = s.filter := rfl

@[simp] theorem State.takeNote_input (s : State) : (s.takeNote).input = s.input := rfl

@[simp] theorem State.takeNote_whiteIn (s : State) : (s.takeNote).whiteIn = s.whiteIn := rfl

@[simp] theorem State.takeNote_pinkIn (s : State) : (s.takeNote).pinkIn = s.pinkIn := rfl

@[simp] theorem State.takeNote_rsp (s : State) : (s.takeNote).rsp = s.rsp := rfl

@[simp] theorem State.takeNote_out (s : State) : (s.takeNote).out = s.out := rfl

-- tickState

@[simp] theorem State.tickState_cfg (s : State) : (s.tickState).cfg = s.cfg := rfl

@[simp] theorem State.tickState_pend (s : State) : (s.tickState).pend = s.pend := rfl

@[simp] theorem State.tickState_act (s : State) : (s.tickState).act = s.act := rfl

@[simp] theorem State.tickState_latch (s : State) : (s.tickState).latch = s.latch := rfl

@[simp] theorem State.tickState_note (s : State) : (s.tickState).note = s.note := rfl

@[simp] theorem State.tickState_ega (s : State) : (s.tickState).ega = egTick s.cfg.ega s.ega := rfl

@[simp] theorem State.tickState_egf (s : State) : (s.tickState).egf = egTick s.cfg.egf s.egf := rfl

@[simp] theorem State.tickState_osc1 (s : State) : (s.tickState).osc1 = advance s.osc1 (tickInc1 s) := rfl

@[simp] theorem State.tickState_osc2 (s : State) : (s.tickState).osc2 = advance s.osc2 (tickInc2 s) := rfl

@[simp] theorem State.tickState_osc3 (s : State) : (s.tickState).osc3 = advance s.osc3 (tickInc3 s) := rfl

@[simp] theorem State.tickState_lfoT (s : State) : (s.tickState).lfoT = advance s.lfoT (lfoInc s.cfg.fs (s32 s.act.lfotremolo)) :=
  rfl

@[simp] theorem State.tickState_lfoV (s : State) : (s.tickState).lfoV = advance s.lfoV (lfoInc s.cfg.fs (s32 s.act.lfovibrato)) :=
  rfl

@[simp] theorem State.tickState_filter (s : State) : (s.tickState).filter = tickFilter s := rfl

@[simp] theorem State.tickState_input (s : State) : (s.tickState).input = s.input := rfl

@[simp] theorem State.tickState_whiteIn (s : State) : (s.tickState).whiteIn = s.whiteIn := rfl

@[simp] theorem State.tickState_pinkIn (s : State) : (s.tickState).pinkIn = s.pinkIn := rfl

@[simp] theorem State.tickState_rsp (s : State) : (s.tickState).rsp = s.rsp := rfl

@[simp] theorem State.tickState_out (s : State) : (s.tickState).out = s.out := rfl

-- blockBoundary

@[simp] theorem State.blockBoundary_cfg (s : State) : s.blockBoundary.cfg = s.cfg := by
  unfold State.blockBoundary
  split <;> rfl

@[simp] theorem State.blockBoundary_pend (s : State) : s.blockBoundary.pend = s.pend := by
  unfold State.blockBoundary
  split <;> rfl

@[simp] theorem State.blockBoundary_act (s : State) : s.blockBoundary.act = s.pend := by
  unfold State.blockBoundary
  split <;> rfl

@[simp] theorem State.blockBoundary_osc1 (s : State) : s.blockBoundary.osc1 = s.osc1 := by
  unfold State.blockBoundary
  split <;> rfl

@[simp] theorem State.blockBoundary_osc2 (s : State) : s.blockBoundary.osc2 = s.osc2 := by
  unfold State.blockBoundary
  split <;> rfl

@[simp] theorem State.blockBoundary_osc3 (s : State) : s.blockBoundary.osc3 = s.osc3 := by
  unfold State.blockBoundary
  split <;> rfl

@[simp] theorem State.blockBoundary_lfoT (s : State) : s.blockBoundary.lfoT = s.lfoT := by
  unfold State.blockBoundary
  split <;> rfl

@[simp] theorem State.blockBoundary_lfoV (s : State) : s.blockBoundary.lfoV = s.lfoV := by
  unfold State.blockBoundary
  split <;> rfl

@[simp] theorem State.blockBoundary_filter (s : State) : s.blockBoundary.filter = s.filter := by
  unfold State.blockBoundary
  split <;> rfl

@[simp] theorem State.blockBoundary_input (s : State) : s.blockBoundary.input = s.input := by
  unfold State.blockBoundary
  split <;> rfl

@[simp] theorem State.blockBoundary_whiteIn (s : State) : s.blockBoundary.whiteIn = s.whiteIn := by
  unfold State.blockBoundary
  split <;> rfl

@[simp] theorem State.blockBoundary_pinkIn (s : State) : s.blockBoundary.pinkIn = s.pinkIn := by
  unfold State.blockBoundary
  split <;> rfl

@[simp] theorem State.blockBoundary_rsp (s : State) : s.blockBoundary.rsp = s.rsp := by
  unfold State.blockBoundary
  split <;> rfl

@[simp] theorem State.blockBoundary_out (s : State) : s.blockBoundary.out = s.out := by
  unfold State.blockBoundary
  split <;> rfl

/-- A block boundary with no note pending only publishes the registers (40_commands.md R91). -/
theorem State.blockBoundary_of_not_ev (s : State) (h : s.latch.ev = false) :
    s.blockBoundary = { s with act := s.pend } := by
  simp [State.blockBoundary, h, State.publish]

/-- A block boundary with a note pending takes it over (R91). -/
theorem State.blockBoundary_of_ev (s : State) (h : s.latch.ev = true) :
    s.blockBoundary = s.publish.takeNote := by
  simp [State.blockBoundary, h]

-- applyReset

@[simp] theorem State.applyReset_cfg (s : State) : (s.applyReset).cfg = s.cfg := rfl

@[simp] theorem State.applyReset_pend (s : State) : (s.applyReset).pend = (State.resetWith s.cfg).pend := rfl

@[simp] theorem State.applyReset_act (s : State) : (s.applyReset).act = (State.resetWith s.cfg).act := rfl

@[simp] theorem State.applyReset_latch (s : State) : (s.applyReset).latch = (State.resetWith s.cfg).latch := rfl

@[simp] theorem State.applyReset_note (s : State) : (s.applyReset).note = (State.resetWith s.cfg).note := rfl

@[simp] theorem State.applyReset_ega (s : State) : (s.applyReset).ega = (State.resetWith s.cfg).ega := rfl

@[simp] theorem State.applyReset_egf (s : State) : (s.applyReset).egf = (State.resetWith s.cfg).egf := rfl

@[simp] theorem State.applyReset_osc1 (s : State) : (s.applyReset).osc1 = (State.resetWith s.cfg).osc1 := rfl

@[simp] theorem State.applyReset_osc2 (s : State) : (s.applyReset).osc2 = (State.resetWith s.cfg).osc2 := rfl

@[simp] theorem State.applyReset_osc3 (s : State) : (s.applyReset).osc3 = (State.resetWith s.cfg).osc3 := rfl

@[simp] theorem State.applyReset_lfoT (s : State) : (s.applyReset).lfoT = (State.resetWith s.cfg).lfoT := rfl

@[simp] theorem State.applyReset_lfoV (s : State) : (s.applyReset).lfoV = (State.resetWith s.cfg).lfoV := rfl

@[simp] theorem State.applyReset_filter (s : State) : (s.applyReset).filter = (State.resetWith s.cfg).filter := rfl

@[simp] theorem State.applyReset_input (s : State) : (s.applyReset).input = s.input := rfl

@[simp] theorem State.applyReset_whiteIn (s : State) : (s.applyReset).whiteIn = (State.resetWith s.cfg).whiteIn :=
  rfl

@[simp] theorem State.applyReset_pinkIn (s : State) : (s.applyReset).pinkIn = (State.resetWith s.cfg).pinkIn := rfl

@[simp] theorem State.applyReset_rsp (s : State) : (s.applyReset).rsp = s.rsp := rfl

@[simp] theorem State.applyReset_out (s : State) : (s.applyReset).out = s.out := rfl

-- place

@[simp] theorem State.place_cfg (s : State) (w : CmdWord) : (s.place w).cfg = s.cfg := rfl

@[simp] theorem State.place_pend (s : State) (w : CmdWord) : (s.place w).pend = s.pend := rfl

@[simp] theorem State.place_act (s : State) (w : CmdWord) : (s.place w).act = s.act := rfl

@[simp] theorem State.place_latch (s : State) (w : CmdWord) : (s.place w).latch = s.latch := rfl

@[simp] theorem State.place_note (s : State) (w : CmdWord) : (s.place w).note = s.note := rfl

@[simp] theorem State.place_ega (s : State) (w : CmdWord) : (s.place w).ega = s.ega := rfl

@[simp] theorem State.place_egf (s : State) (w : CmdWord) : (s.place w).egf = s.egf := rfl

@[simp] theorem State.place_osc1 (s : State) (w : CmdWord) : (s.place w).osc1 = s.osc1 := rfl

@[simp] theorem State.place_osc2 (s : State) (w : CmdWord) : (s.place w).osc2 = s.osc2 := rfl

@[simp] theorem State.place_osc3 (s : State) (w : CmdWord) : (s.place w).osc3 = s.osc3 := rfl

@[simp] theorem State.place_lfoT (s : State) (w : CmdWord) : (s.place w).lfoT = s.lfoT := rfl

@[simp] theorem State.place_lfoV (s : State) (w : CmdWord) : (s.place w).lfoV = s.lfoV := rfl

@[simp] theorem State.place_filter (s : State) (w : CmdWord) : (s.place w).filter = s.filter := rfl

@[simp] theorem State.place_input (s : State) (w : CmdWord) : (s.place w).input = .command w 0 0 :: s.input := rfl

@[simp] theorem State.place_whiteIn (s : State) (w : CmdWord) : (s.place w).whiteIn = s.whiteIn := rfl

@[simp] theorem State.place_pinkIn (s : State) (w : CmdWord) : (s.place w).pinkIn = s.pinkIn := rfl

@[simp] theorem State.place_rsp (s : State) (w : CmdWord) : (s.place w).rsp = s.rsp := rfl

@[simp] theorem State.place_out (s : State) (w : CmdWord) : (s.place w).out = s.out := rfl

-- paramWrite

@[simp] theorem State.paramWrite_cfg (s : State) (a : Byte) (v : Word) : (s.paramWrite a v).cfg = s.cfg := by
  unfold State.paramWrite
  split <;> rfl

@[simp] theorem State.paramWrite_act (s : State) (a : Byte) (v : Word) : (s.paramWrite a v).act = s.act := by
  unfold State.paramWrite
  split <;> rfl

@[simp] theorem State.paramWrite_latch (s : State) (a : Byte) (v : Word) : (s.paramWrite a v).latch = s.latch := by
  unfold State.paramWrite
  split <;> rfl

@[simp] theorem State.paramWrite_note (s : State) (a : Byte) (v : Word) : (s.paramWrite a v).note = s.note := by
  unfold State.paramWrite
  split <;> rfl

@[simp] theorem State.paramWrite_ega (s : State) (a : Byte) (v : Word) : (s.paramWrite a v).ega = s.ega := by
  unfold State.paramWrite
  split <;> rfl

@[simp] theorem State.paramWrite_egf (s : State) (a : Byte) (v : Word) : (s.paramWrite a v).egf = s.egf := by
  unfold State.paramWrite
  split <;> rfl

@[simp] theorem State.paramWrite_osc1 (s : State) (a : Byte) (v : Word) : (s.paramWrite a v).osc1 = s.osc1 := by
  unfold State.paramWrite
  split <;> rfl

@[simp] theorem State.paramWrite_osc2 (s : State) (a : Byte) (v : Word) : (s.paramWrite a v).osc2 = s.osc2 := by
  unfold State.paramWrite
  split <;> rfl

@[simp] theorem State.paramWrite_osc3 (s : State) (a : Byte) (v : Word) : (s.paramWrite a v).osc3 = s.osc3 := by
  unfold State.paramWrite
  split <;> rfl

@[simp] theorem State.paramWrite_lfoT (s : State) (a : Byte) (v : Word) : (s.paramWrite a v).lfoT = s.lfoT := by
  unfold State.paramWrite
  split <;> rfl

@[simp] theorem State.paramWrite_lfoV (s : State) (a : Byte) (v : Word) : (s.paramWrite a v).lfoV = s.lfoV := by
  unfold State.paramWrite
  split <;> rfl

@[simp] theorem State.paramWrite_filter (s : State) (a : Byte) (v : Word) : (s.paramWrite a v).filter = s.filter := by
  unfold State.paramWrite
  split <;> rfl

@[simp] theorem State.paramWrite_input (s : State) (a : Byte) (v : Word) : (s.paramWrite a v).input = s.input := by
  unfold State.paramWrite
  split <;> rfl

@[simp] theorem State.paramWrite_whiteIn (s : State) (a : Byte) (v : Word) : (s.paramWrite a v).whiteIn = s.whiteIn := by
  unfold State.paramWrite
  split <;> rfl

@[simp] theorem State.paramWrite_pinkIn (s : State) (a : Byte) (v : Word) : (s.paramWrite a v).pinkIn = s.pinkIn := by
  unfold State.paramWrite
  split <;> rfl

@[simp] theorem State.paramWrite_rsp (s : State) (a : Byte) (v : Word) : (s.paramWrite a v).rsp = s.rsp := by
  unfold State.paramWrite
  split <;> rfl

@[simp] theorem State.paramWrite_out (s : State) (a : Byte) (v : Word) : (s.paramWrite a v).out = s.out := by
  unfold State.paramWrite
  split <;> rfl

-- takeSamples

@[simp] theorem State.takeSamples_cfg (s : State) (i : Instr) (w p : Word) : (s.takeSamples i w p).cfg = s.cfg := by
  cases i <;> rfl

@[simp] theorem State.takeSamples_pend (s : State) (i : Instr) (w p : Word) : (s.takeSamples i w p).pend = s.pend := by
  cases i <;> rfl

@[simp] theorem State.takeSamples_act (s : State) (i : Instr) (w p : Word) : (s.takeSamples i w p).act = s.act := by
  cases i <;> rfl

@[simp] theorem State.takeSamples_latch (s : State) (i : Instr) (w p : Word) : (s.takeSamples i w p).latch = s.latch := by
  cases i <;> rfl

@[simp] theorem State.takeSamples_note (s : State) (i : Instr) (w p : Word) : (s.takeSamples i w p).note = s.note := by
  cases i <;> rfl

@[simp] theorem State.takeSamples_ega (s : State) (i : Instr) (w p : Word) : (s.takeSamples i w p).ega = s.ega := by
  cases i <;> rfl

@[simp] theorem State.takeSamples_egf (s : State) (i : Instr) (w p : Word) : (s.takeSamples i w p).egf = s.egf := by
  cases i <;> rfl

@[simp] theorem State.takeSamples_osc1 (s : State) (i : Instr) (w p : Word) : (s.takeSamples i w p).osc1 = s.osc1 := by
  cases i <;> rfl

@[simp] theorem State.takeSamples_osc2 (s : State) (i : Instr) (w p : Word) : (s.takeSamples i w p).osc2 = s.osc2 := by
  cases i <;> rfl

@[simp] theorem State.takeSamples_osc3 (s : State) (i : Instr) (w p : Word) : (s.takeSamples i w p).osc3 = s.osc3 := by
  cases i <;> rfl

@[simp] theorem State.takeSamples_lfoT (s : State) (i : Instr) (w p : Word) : (s.takeSamples i w p).lfoT = s.lfoT := by
  cases i <;> rfl

@[simp] theorem State.takeSamples_lfoV (s : State) (i : Instr) (w p : Word) : (s.takeSamples i w p).lfoV = s.lfoV := by
  cases i <;> rfl

@[simp] theorem State.takeSamples_filter (s : State) (i : Instr) (w p : Word) : (s.takeSamples i w p).filter = s.filter := by
  cases i <;> rfl

@[simp] theorem State.takeSamples_input (s : State) (i : Instr) (w p : Word) : (s.takeSamples i w p).input = s.input := by
  cases i <;> rfl

@[simp] theorem State.takeSamples_rsp (s : State) (i : Instr) (w p : Word) : (s.takeSamples i w p).rsp = s.rsp := by
  cases i <;> rfl

@[simp] theorem State.takeSamples_out (s : State) (i : Instr) (w p : Word) : (s.takeSamples i w p).out = s.out := by
  cases i <;> rfl

-- What the operations answer.

/-- The store to an address that holds a register (20_memory.md R50). -/
theorem State.paramWrite_of_some (s : State) {a : Byte} {p : Param} (v : Word) (h : Param.ofAddr a = some p) :
    s.paramWrite a v = { s with pend := s.pend.set p (u32 (setpValue p v)) } := by
  simp [State.paramWrite, h]

/-- The store to an unimplemented address is ignored (R55). -/
theorem State.paramWrite_of_none (s : State) {a : Byte} (v : Word) (h : Param.ofAddr a = none) :
    s.paramWrite a v = s := by
  simp [State.paramWrite, h]

/-- The read of an address that holds a register (R50). -/
theorem State.paramRead_of_some (s : State) {a : Byte} {p : Param} (h : Param.ofAddr a = some p) :
    s.paramRead a = s.pend.get p := by
  simp [State.paramRead, h]

/-- The read of an unimplemented address (R55). -/
theorem State.paramRead_of_none (s : State) {a : Byte} (h : Param.ofAddr a = none) : s.paramRead a = 0 := by
  simp [State.paramRead, h]

/-- The sample pair of a `TICK` (10_state.md R30). -/
@[simp] theorem State.takeSamples_tick (s : State) (w p : Word) :
    s.takeSamples .tick w p = { s with whiteIn := w, pinkIn := p } := rfl

/-- Any other command leaves the sample ports alone. -/
theorem State.takeSamples_of_ne (s : State) {i : Instr} (w p : Word) (h : i ≠ .tick) : s.takeSamples i w p = s := by
  cases i <;> first | rfl | exact absurd rfl h

/-- What the gates of a pending note event do to an envelope's level: nothing (R110, R111). -/
@[simp] theorem Envelope.takeGates_level (e : Envelope) (l : NoteLatch) : (e.takeGates l).level = e.level := by
  unfold Envelope.takeGates
  cases l.trig <;> cases l.gate <;> simp

end Sys2Proof.Machine
end

