-- ==== Sys2Proof/Laws/Step.lean ====
section
/-! SUPPORT. What each command answers, everything a step can do, and how a run on a list of events unfolds. -/

namespace Sys2Proof.Machine

@[simp] theorem exec_nop (s : State) : exec .nop s = .next s := rfl

@[simp] theorem exec_setp (a : Byte) (v : Word) (s : State) : exec (.setp a v) s = .next (s.paramWrite a v) := rfl

@[simp] theorem exec_getp (a : Byte) (s : State) : exec (.getp a) s = .next (s.respond (s.paramRead a)) := rfl

@[simp] theorem exec_note (a : Byte) (gate : Bool) (v : Word) (s : State) :
    exec (.note a gate v) s = .next { s with latch := s.latch.record a gate v } := rfl

@[simp] theorem exec_blk (s : State) : exec .blk s = .next s.blockBoundary := rfl

@[simp] theorem exec_tick (s : State) : exec .tick s = .next (s.tickState.emit (tickOut s) (tickOut s)) := rfl

/-- No command touches the configuration, what is still to be delivered, or the sample ports. -/
theorem exec_ports {i : Instr} {s t : State} (h : exec i s = .next t) :
    t.cfg = s.cfg ∧ t.input = s.input ∧ t.whiteIn = s.whiteIn ∧ t.pinkIn = s.pinkIn := by
  cases i <;> simp at h <;> subst h <;> simp

/-- A step with nothing delivered (60_exceptions.md R217). -/
theorem step_idle {s : State} (hc : s.cfg.wf = true) (hi : s.input = []) : step s = .next s := by
  simp [step, hc, State.fetch, hi]

/-- A step that applies `rst` (70_reset_and_hazards.md R225). -/
theorem step_rst {s : State} {rest : List Event} (hc : s.cfg.wf = true) (hi : s.input = .rst :: rest) :
    step s = .next ({ s with input := rest } : State).applyReset := by
  simp [step, hc, State.fetch, hi]

/-- A step on a transfer that decodes to a command (20_memory.md R56). -/
theorem step_command {s : State} {w : CmdWord} {a b : Word} {rest : List Event} {i : Instr} (hc : s.cfg.wf = true)
    (hi : s.input = .command w a b :: rest) (hd : decode w = .command i) :
    step s = exec i (({ s with input := rest } : State).takeSamples i a b) := by
  simp [step, hc, State.fetch, hi, hd]

/-- A step on a word with a reserved opcode (30_encoding.md R70 a). -/
theorem step_reserved {s : State} {w : CmdWord} {a b : Word} {rest : List Event} {op : Byte} (hc : s.cfg.wf = true)
    (hi : s.input = .command w a b :: rest) (hd : decode w = .reservedOpcode op) :
    step s = .next { s with input := rest } := by
  simp [step, hc, State.fetch, hi, hd]

/-- Everything a step that answers a next state can have done. -/
theorem step_cases {s t : State} (h : step s = .next t) :
    s.cfg.wf = true ∧
    ((s.input = [] ∧ t = s) ∨
     (∃ rest, s.input = .rst :: rest ∧ t = ({ s with input := rest } : State).applyReset) ∨
     (∃ w a b rest op, s.input = .command w a b :: rest ∧ decode w = .reservedOpcode op ∧
        t = { s with input := rest }) ∨
     ∃ w a b rest i, s.input = .command w a b :: rest ∧ decode w = .command i ∧
        exec i (({ s with input := rest } : State).takeSamples i a b) = .next t) := by
  have hc : s.cfg.wf = true := by
    by_contra hc
    simp [step, hc] at h
  refine ⟨hc, ?_⟩
  rcases hi : s.input with _ | ⟨⟨w, a, b⟩ | _, rest⟩
  · rw [step_idle hc hi] at h
    exact .inl ⟨rfl, by simpa using h.symm⟩
  · rcases hd : decode w with i | op
    · rw [step_command hc hi hd] at h
      exact .inr (.inr (.inr ⟨w, a, b, rest, i, rfl, hd, h⟩))
    · rw [step_reserved hc hi hd] at h
      exact .inr (.inr (.inl ⟨w, a, b, rest, op, rfl, hd, by simpa using h.symm⟩))
  · rw [step_rst hc hi] at h
    exact .inr (.inl ⟨rest, rfl, by simpa using h.symm⟩)

@[simp] theorem runOn_nil (s : State) : s.runOn [] = .next { s with input := [] } := rfl

/-- The first event of a run is one step, the others a run from its state. -/
theorem runOn_cons {s t : State} {e : Event} {es : List Event} (h : step { s with input := e :: es } = .next t)
    (hi : t.input = es) : s.runOn (e :: es) = t.runOn es := by
  have ht : ({ t with input := es } : State) = t := by
    rw [← hi]
  simp only [State.runOn, List.length_cons, Host.Core.run, ht]
  rw [show core.step { s with input := e :: es } = step { s with input := e :: es } from rfl, h]

/-- A run whose first event is a command other than `TICK`. -/
theorem runOn_command {s t : State} {w : CmdWord} {a b : Word} {i : Instr} {es : List Event} (hc : s.cfg.wf = true)
    (hd : decode w = .command i) (hn : i ≠ .tick) (h : exec i { s with input := es } = .next t) :
    s.runOn (.command w a b :: es) = t.runOn es := by
  refine runOn_cons ?_ (exec_ports h).2.1
  rw [step_command (by exact hc) rfl hd, State.takeSamples_of_ne _ _ _ hn]
  exact h

/-- A run whose first event is a `TICK`. -/
theorem runOn_tick {s t : State} {w : CmdWord} {a b : Word} {es : List Event} (hc : s.cfg.wf = true)
    (hd : decode w = .command .tick) (h : exec .tick { s with input := es, whiteIn := a, pinkIn := b } = .next t) :
    s.runOn (.command w a b :: es) = t.runOn es := by
  refine runOn_cons ?_ (exec_ports h).2.1
  rw [step_command (by exact hc) rfl hd]
  exact h

/-- A run whose first event is a word with a reserved opcode. -/
theorem runOn_reserved {s : State} {w : CmdWord} {a b : Word} {op : Byte} {es : List Event} (hc : s.cfg.wf = true)
    (hd : decode w = .reservedOpcode op) : s.runOn (.command w a b :: es) = s.runOn es := by
  rw [runOn_cons (t := { s with input := es }) (step_reserved (by exact hc) rfl hd) rfl]
  rfl

end Sys2Proof.Machine
end

