-- ==== Sys2Proof/Tests/Slice0.lean ====
section
/-! SUPPORT. Tests of the model on fixed values, every expected value taken from the spec (95_test_vectors.md and the examples
in the rules), and a witness for the hypotheses of each statement that has some. -/

open Sys2Proof Sys2Proof.Machine

-- Decoding: words written out bit by bit from 30_encoding.md R65 to R67, then the words of R74 and of program P3

theorem test_decode_nop :
    decode (0b00000000#8 ++ 0b00000000#8 ++ 0b0000000000000000#16 ++ 0x00000000#32) = .command .nop := by decide

theorem test_decode_setp :
    decode (0b00000001#8 ++ 0b00000110#8 ++ 0b0000000000000000#16 ++ 0xFFFFFFFD#32) =
      .command (.setp 6 0xFFFFFFFD) := by decide

theorem test_decode_getp :
    decode (0b00000010#8 ++ 0b00001111#8 ++ 0b0000000000000000#16 ++ 0x00000000#32) = .command (.getp 15) := by decide

theorem test_decode_note_on :
    decode (0b00000011#8 ++ 0b01000101#8 ++ 0b0000000000000001#16 ++ 0x01000000#32) =
      .command (.note 69 true 0x01000000) := by decide

/-- R67: `b[15:1]` is no part of the gate. -/
theorem test_decode_note_off_with_other_bits :
    decode (0b00000011#8 ++ 0b01000101#8 ++ 0b1111111111111110#16 ++ 0x00000000#32) = .command (.note 69 false 0) := by
  decide

theorem test_decode_blk :
    decode (0b00000100#8 ++ 0b00000000#8 ++ 0b0000000000000000#16 ++ 0x00000000#32) = .command .blk := by decide

theorem test_decode_tick :
    decode (0b00000101#8 ++ 0b00000000#8 ++ 0b0000000000000000#16 ++ 0x00000000#32) = .command .tick := by decide

/-- P3 of 95_test_vectors.md: unused fields are ignored. -/
theorem test_decode_getp_unused_fields : decode 0x0202FFFFDEADBEEF = .command (.getp 2) := by decide

/-- R69: the first and the last reserved opcode, and the one of P3. -/
theorem test_decode_reserved :
    decode 0x0600000000000000 = .reservedOpcode 0x06 ∧ decode 0xFF00000000000000 = .reservedOpcode 0xFF ∧
      decode 0x7F02FFFFFFFFFFFF = .reservedOpcode 0x7F := by decide

/-- R74. -/
theorem test_encode_worked_words :
    encode (.setp 2 16777216) = 0x0102000001000000 ∧ encode (.getp 15) = 0x020F000000000000 ∧
      encode (.note 69 true 16777216) = 0x0345000101000000 ∧ encode (.note 69 false 0) = 0x0345000000000000 ∧
      encode .nop = 0x0000000000000000 ∧ encode .blk = 0x0400000000000000 ∧ encode .tick = 0x0500000000000000 := by
  decide

/-- R73: `RENDER 4` is program P1. -/
theorem test_render_expands : (Pseudo.render 4).expand = [.blk, .tick, .tick, .tick, .tick] := by decide

/-- R52: a transport carries the most significant byte first. -/
theorem test_transport_order :
    transportBytes 0x0345000101000000 = [0x03, 0x45, 0x00, 0x01, 0x01, 0x00, 0x00, 0x00] ∧
      wordOfTransport [0x03, 0x45, 0x00, 0x01, 0x01, 0x00, 0x00, 0x00, 0xAA] = some (0x0345000101000000, [0xAA]) := by
  decide

/-- The words of spec/opcode_table.json, numbered as the table numbers them. -/
theorem test_table_words :
    [0x0000000000000000, 0x0100000000000000, 0x0200000000000000, 0x0300000000000000].map (decodeTableWord 64) =
        [some .nop, some (.setp 0 0), some (.getp 0), some (.note 0 false 0)] ∧
      [0x0400000000000000, 0x0500000000000000, 0x0600000000000000].map (decodeTableWord 64) =
        [some .blk, some .tick, none] := by decide

-- Well-formedness: REFCFG passes, and each check refuses a configuration that fails it alone (00_scope.md R6)

/-- The envelope parameters of sequences E1 to E4 of 95_test_vectors.md. -/
def smallEg : EgCfg := { na := 4, nd := 4, sus := 8388608, nr := 4, pg := 16777216 }

theorem test_wf_refcfg : Cfg.ref.wf = true := by decide

theorem test_wf_fs_81 : ({ Cfg.ref with fs := 81 } : Cfg).wf = true := by decide

theorem test_illformed_fs : ({ Cfg.ref with fs := 79, cutMinHz := 0 } : Cfg).wf = false := by decide

theorem test_illformed_cutoff_floor : ({ Cfg.ref with fs := 80 } : Cfg).wf = false := by decide

theorem test_illformed_attack :
    ({ Cfg.ref with ega := { smallEg with na := 0 } } : Cfg).wf = false ∧
      ({ Cfg.ref with egf := { smallEg with na := 2 ^ 32 } } : Cfg).wf = false := by decide

theorem test_illformed_decay :
    ({ Cfg.ref with ega := { smallEg with nd := 0 } } : Cfg).wf = false ∧
      ({ Cfg.ref with egf := { smallEg with nd := 2 ^ 32 } } : Cfg).wf = false := by decide

theorem test_illformed_release :
    ({ Cfg.ref with egf := { smallEg with nr := 0 } } : Cfg).wf = false ∧
      ({ Cfg.ref with ega := { smallEg with nr := 2 ^ 32 } } : Cfg).wf = false := by decide

theorem test_illformed_sustain :
    ({ Cfg.ref with ega := { smallEg with sus := -1 } } : Cfg).wf = false ∧
      ({ Cfg.ref with egf := { smallEg with sus := 16777217 } } : Cfg).wf = false := by decide

theorem test_illformed_post_gain :
    ({ Cfg.ref with ega := { smallEg with pg := 16777217 } } : Cfg).wf = false ∧
      ({ Cfg.ref with egf := { smallEg with pg := -1 } } : Cfg).wf = false := by decide

theorem test_illformed_tremolo_sharpness :
    ({ Cfg.ref with lfoT := { type := .triangle, sharp := 16777217 } } : Cfg).wf = false := by decide

theorem test_illformed_vibrato_sharpness :
    ({ Cfg.ref with lfoV := { type := .modulatedSine, sharp := -1 } } : Cfg).wf = false := by decide

-- One step on the word of a command; the expected values are those of 95_test_vectors.md

/-- What `read` finds after one step on a command word with a pair on the sample ports. -/
def afterWord {α : Type} (s : State) (w : CmdWord) (white pink : Word) (read : State → α) : Option α :=
  match step { s with input := [.command w white pink] } with
  | .next t => some (read t)
  | .fault _ | .refused _ => none

/-- Vectors 2.2: 12 into `interval2` stores 8. -/
theorem test_setp_clamps : afterWord State.reset 0x010600000000000C 0 0 (fun t => t.pend.interval2) = some 8 := by decide

/-- P3: an unimplemented address. -/
theorem test_setp_unimplemented :
    afterWord State.reset 0x0117000000000005 0 0 (fun t => decide (t.pend = Params.reset ∧ t.act = Params.reset)) =
      some true := by decide

/-- Vectors 2.2: `range2` answers 1 after reset. -/
theorem test_getp_range2 : afterWord State.reset 0x0207000000000000 0 0 State.rsp = some [1] := by decide

/-- P3: an unimplemented address answers 0. -/
theorem test_getp_unimplemented : afterWord State.reset 0x02FF000000000000 0 0 State.rsp = some [0] := by decide

/-- Vectors 2.3: `NOTE 200, 5.0, 0`. -/
theorem test_note_clamps :
    afterWord State.reset 0x03C8000005000000 0 0 State.latch =
      some { pitch := 127, vel := 16777216, gate := false, trig := false, ev := true } := by decide

/-- R70 (a): a reserved opcode leaves the reset state and sends nothing. -/
theorem test_reserved_has_no_effect : afterWord State.reset 0x7F02FFFFFFFFFFFF 5 7 id = some State.reset := by decide

theorem test_nop_has_no_effect : afterWord State.reset 0x0000000000000000 5 7 id = some State.reset := by decide

/-- The reset state with `NOTE 69, 1.0, 1` latched (vectors 2.3). -/
def latched : State :=
  { State.reset with latch := { pitch := 69, vel := 16777216, gate := true, trig := true, ev := true } }

/-- Vectors 2.3: the `BLK` after `NOTE 69, 1.0, 1`. -/
theorem test_blk_takes_the_note :
    afterWord latched 0x0400000000000000 0 0 (fun t => (t.note, t.latch, t.ega, t.egf)) =
      some
        ({ pitch := 69, vel := 16777216, gate := true, noteInc := 39370534 },
          { pitch := 69, vel := 16777216, gate := true, trig := false, ev := false },
          { stage := .attack, level := 0, elapsed := 0, start := 0 },
          { stage := .attack, level := 0, elapsed := 0, start := 0 }) := by decide

/-- Vectors 2.3: `NOTE 60, 1.0, 1` then `NOTE 60, 0, 0` in one block ends in Release (sequence E3). -/
theorem test_blk_on_and_off :
    afterWord { latched with latch := { latched.latch with pitch := 60, vel := 0, gate := false } }
        0x0400000000000000 0 0 (fun t => (t.ega.stage, t.egf.stage, t.note.noteInc)) =
      some (.release, .release, 23409859) := by decide

/-- The state of program P2 after its `BLK`. -/
def squareNote : State :=
  let f := { Params.reset with type1 := 2, sharp1 := 16777216, mul1 := 16777216, cutoffFact := 16777216 }
  let e : Envelope := { stage := .attack, level := 0, elapsed := 0, start := 0 }
  { State.reset with
    pend := f
    act := f
    note := { pitch := 69, vel := 16777216, gate := true, noteInc := 39370534 }
    latch := { pitch := 69, vel := 16777216, gate := true, trig := false, ev := false }
    ega := e
    egf := e }

/-- P6, tick 0: the noise reaches the filter without a note. -/
theorem test_tick_noise :
    afterWord
        { State.reset with act := { Params.reset with mulWhiteNoise := 16777216, cutoffFact := 16777216 } }
        0x0500000000000000 0x01000000 0
        (fun t => ([s32 t.filter.y1, s32 t.filter.y2, s32 t.filter.y3], t.osc1.phase)) =
      some ([37411, 97, 0], 731558) := by decide

/-- The host's question: a step on each row of the opcode table runs from reset. -/
theorem test_fetch_word_runs :
    step (State.reset.withFetchWord 64 0x0000000000000000) = .next State.reset ∧
      step (State.reset.withFetchWord 64 0x0100000000000000) = .next State.reset ∧
      step (State.reset.withFetchWord 64 0x0200000000000000) = .next { State.reset with rsp := [0] } ∧
      step (State.reset.withFetchWord 64 0x0400000000000000) = .next State.reset := by
  refine ⟨?_, ?_, ?_, ?_⟩ <;> rfl

/-- The same for `NOTE` and `TICK`: the next state is that of the command. -/
theorem test_fetch_word_runs_note_and_tick :
    step (State.reset.withFetchWord 64 0x0300000000000000) = exec (.note 0 false 0) State.reset ∧
      step (State.reset.withFetchWord 64 0x0500000000000000) = exec .tick State.reset := ⟨rfl, rfl⟩

/-- The state of program P2 after tick 239, as its continuation table gives it. -/
def squareLater : State :=
  { squareNote with
    ega := { stage := .attack, level := 8388608, elapsed := 240, start := 0 }
    egf := { stage := .decay, level := 16777216, elapsed := 0, start := 16777216 }
    osc1 := { State.reset.osc1 with phase := 858993568 }
    filter := { y1 := 8077918, y2 := 8077917, y3 := 8077916, y4 := 8077915 } }

set_option maxRecDepth 4000 in
/-- P2, tick 240: the sample sent, the filter and the phase. -/
theorem test_tick_square :
    afterWord squareLater 0x0500000000000000 0 0 (fun t => ([t.filter.y1, t.filter.y4], t.osc1.phase, t.out)) =
      some ([8108971, 8108968], 898364102, [(5733906, 5733906)]) := by decide

/-- U16: an instance outside the legal ranges is refused by name. -/
theorem test_illegal_configuration :
    step { State.reset with cfg := { Cfg.ref with fs := 79 } } = .refused .illegalConfiguration := rfl

-- Functions of the datapath, against section 2 of 95_test_vectors.md

theorem test_fmul :
    fmul 1 (-1) = -1 ∧ fmul (100 * ONE) (100 * ONE) = 2147483647 ∧ fmul (-100 * ONE) (100 * ONE) = -2147483648 ∧
      fmul 5592405 3 = 0 := by decide

theorem test_rnd : rnd 1 2 = 1 ∧ rnd 3 2 = 2 ∧ rnd (-1) 2 = 0 ∧ rnd (-3) 2 = -1 ∧ rnd 7 3 = 2 := by decide

theorem test_lerp : lerp 5 6 (ONE / 2) = 5 ∧ lerp 6 5 (ONE / 2) = 5 ∧ lerp (-ONE) ONE (ONE / 4) = -8388608 := by decide

/-- R7: ten milliseconds at 48000 Hz are 480 samples, and no time is shorter than one. -/
theorem test_samples : samplesOfSeconds 1 100 48000 = 480 ∧ samplesOfSeconds 0 1 48000 = 1 := by decide

theorem test_derived_constants : k20kInc Cfg.ref = 1789569707 ∧ cutMinInc Cfg.ref = 1789570 := by decide

theorem test_note_inc : (noteIncAt 48000 127).toNat = 1122405052 ∧ (noteIncAt 44100 60).toNat = 25480119 := by decide

theorem test_envelope_release :
    falling 4194304 0 1 5 = 3355444 ∧ fmul 3355444 8388608 = 1677722 ∧ rising 10066330 ONE 1 2 = 13421773 := by decide

theorem test_lfo_inc :
    (lfoInc 48000 (5 * ONE)).toNat = 447392 ∧ (lfoInc 48000 2147483647).toNat = 11453246 := by decide

theorem test_trem_vib : trem (-1) = 8388607 ∧ vib (-ONE) = 16515072 ∧ vib (-1) = 16777215 := by decide

theorem test_amp_sel : ampSel 3 6 8388608 = 4 ∧ ampSel 6 3 8388608 = 4 ∧ ampSel 8388608 12582912 4194304 = 9437184 := by
  decide

theorem test_freq_sel :
    freqSel 8388608 17039360 8388608 = 12582912 ∧ freqSel 8388608 17039360 25165824 = 12713984 ∧
      freqSel 16777216 16777216 16777217 = 16777216 := by decide

theorem test_sin_q :
    sinQ 0x01800000 = 617476 ∧ sinQ 0xE0000000 = -11863283 ∧ sinQ 39370534 = 965695 ∧ sinQ 0xFFFFFFFF = 0 := by decide

/-- The generator of vectors 2.7 at a phase. -/
def sampleGen (p : Word) : Generator :=
  { phase := p, lfsr := 1, shPrev := u32 (-4194304), shCur := u32 8388608 }

theorem test_wave_half_sharp :
    wave .sawUp 8388608 (sampleGen 0x20000000) = -12223098 ∧
      wave .sawDown 8388608 (sampleGen 0xA0000000) = -8028794 ∧
      wave .square 8388608 (sampleGen 0xA0000000) = -14320250 ∧
      wave .triangle 8388608 (sampleGen 0x20000000) = 10125945 ∧
      wave .pulse 8388608 (sampleGen 0xC0000000) = -8388608 ∧
      wave .bipolarPulse 8388608 (sampleGen 0xC0000000) = -16777216 ∧
      wave .sampleHold 8388608 (sampleGen 0x60000000) = 4456448 ∧
      wave .modulatedSine 8388608 (sampleGen 0xA0000000) = 5361931 := by decide

theorem test_wave_modulated_sine_full :
    wave .modulatedSine ONE (sampleGen 0x20000000) = 2253778 ∧
      wave .modulatedSine ONE (sampleGen 0x60000000) = -16623871 := by decide

theorem test_advance_wraps :
    advance { phase := 0x80000000, lfsr := 0x13579BDF, shPrev := 0, shCur := 0 } 0xC0000000 =
      { phase := 0x40000000, lfsr := 0xE5AD72E9, shPrev := 0, shCur := 13327077 } := by decide

theorem test_increments :
    incOsc1 39370534 17039360 = 39985698 ∧ incN 39370534 7 1 = 58989149 ∧ incN 39370534 (-8) 1 = 24801882 ∧
      incN 1122405052 8 6 = 2100307168 := by decide

/-- Vectors 2.9. -/
theorem test_osc_three :
    fmul (oscAmp3 2123366 4194304 1) (-ONE) = -530841 ∧ oscAmp3 2123366 4194304 0 = 0 := by decide

theorem test_noise_mux :
    noiseMux 0x80000000 0 0 16777216 0 = -16777216 ∧ noiseMux 0 0xFF2DC6C1 1 0 2097152 = -1722152 ∧
      noiseMux 0x00400000 0 0 0 16777216 = 0 := by decide

theorem test_cutoff :
    cutoffInc Cfg.ref 8388608 8388608 = 447392426 ∧ cutoffInc Cfg.ref 16777216 16777 = 1789570 ∧
      cutoffInc Cfg.ref ONE ONE = 1073741823 ∧ cutCoef 447392426 = 10212640 ∧ resGain 12582912 = 50331648 := by decide

theorem test_soft_clip :
    softClip (-8388608) = -8077919 ∧ softClip 20971520 = 16117003 ∧ softClip 25165823 = 16777216 := by decide

/-- The stage outputs of a filter as numbers. -/
def outputsOf (f : Filter) : List Int := [s32 f.y1, s32 f.y2, s32 f.y3, s32 f.y4]

/-- Traces A and C of vectors 2.11, tick 0. -/
theorem test_ladder :
    outputsOf (ladder { y1 := 0, y2 := 0, y3 := 0, y4 := 0 } 8388608 8388608 0) = [4038959, 2019479, 1009739, 504869] ∧
      outputsOf
          (ladder { y1 := u32 ONE, y2 := u32 ONE, y3 := u32 ONE, y4 := u32 ONE } (-3 * ONE) 16777215 (4 * ONE)) =
        [-16777214, -16777213, -16777212, -16777211] := by decide

theorem test_stereo : stereo (-1) = -1 ∧ stereo 3 = 2 ∧ u32 (stereo (-ONE)) = 0xFF4AFB0D := by decide

-- Witnesses: for each statement with hypotheses, a concrete state and operands that meet them; for each of its clauses, one

/-- EveryStepKeepsTheInvariant, and every statement whose premise is the invariant, at reset. -/
theorem witness_invariant_at_reset : State.reset.Inv where
  cfg := by decide
  pend := fun p => by cases p <;> decide
  act := fun p => by cases p <;> decide
  latchVel := by decide
  trigEv := by decide
  noteVel := by decide
  noteInc := by decide
  ega := ⟨by decide, by decide, (by decide : s32 0 = 0 ∧ (0 : Word) = 0)⟩
  egf := ⟨by decide, by decide, (by decide : s32 0 = 0 ∧ (0 : Word) = 0)⟩
  osc1 := by unfold Generator.Inv; decide
  osc2 := by unfold Generator.Inv; decide
  osc3 := by unfold Generator.Inv; decide
  lfoT := by unfold Generator.Inv; decide
  lfoV := by unfold Generator.Inv; decide
  filter := by unfold Filter.Inv; decide

/-- The state of program P2 after tick 239 with a `TICK` delivered: a note sounding. -/
def soundingTick : State := { squareLater with input := [.command (encode .tick) 0x00400000 0] }

theorem witness_invariant_while_sounding : soundingTick.Inv where
  cfg := by decide
  pend := fun p => by cases p <;> decide
  act := fun p => by cases p <;> decide
  latchVel := by decide
  trigEv := by decide
  noteVel := by decide
  noteInc := by decide
  ega := ⟨by decide, by decide, (by decide : (240 : Word).toNat < 480)⟩
  egf := ⟨by decide, by decide, (by decide : (0 : Word).toNat < 2400 ∧ s32 16777216 = ONE)⟩
  osc1 := by unfold Generator.Inv; decide
  osc2 := by unfold Generator.Inv; decide
  osc3 := by unfold Generator.Inv; decide
  lfoT := by unfold Generator.Inv; decide
  lfoV := by unfold Generator.Inv; decide
  filter := by unfold Filter.Inv; decide

/-- EveryStepKeepsTheStageLaw, OutputsAreOnePairPerTickAndOneWordPerGetp, VelocityIsInaudible: a step that sounds. -/
theorem witness_step_while_sounding :
    soundingTick.OnLines ∧ ∃ t, step soundingTick = .next t :=
  ⟨⟨(by decide : s32 8388608 = rising (s32 0) ONE (240 : Word).toNat 480),
      (by decide : s32 16777216 = falling (s32 16777216) 4194304 (0 : Word).toNat 2400)⟩, _, rfl⟩

/-- InvariantHoldsAtReset, BlockSizeDoesNotMatter, NotesBetweenBlocksCoalesce. -/
theorem witness_legal_configuration : State.reset.cfg.wf = true := by decide

/-- ResetLeavesTheStatedValues: commands of both kinds that complete from the reset state. -/
theorem witness_command_from_reset (c : Cfg) :
    exec .blk (State.resetWith c) = .next (State.resetWith c).blockBoundary ∧ (∀ a, Instr.blk ≠ .getp a) ∧
      Instr.blk ≠ .tick := by simp

/-- StepRunsTheDecodedCommand: a `TICK` and a command that is none. -/
theorem witness_transfers :
    soundingTick.cfg.wf = true ∧ decode (encode .tick) = .command .tick ∧
      decode 0x0102000001000000 = .command (.setp 2 16777216) ∧ Instr.setp 2 16777216 ≠ .tick := by
  decide

/-- OutputsAreOnePairPerTickAndOneWordPerGetp: a step of each of its three clauses. -/
theorem witness_output_clauses :
    (∃ t, step ({ State.reset with input := [.command (encode .tick) 0 0] } : State) = .next t) ∧
      (∃ t, step ({ State.reset with input := [.command (encode (.getp 7)) 0 0] } : State) = .next t) ∧
      (∃ t, step ({ State.reset with input := [.command (encode .blk) 0 0] } : State) = .next t) ∧
      decode (encode (.getp 7)) = .command (.getp 7) ∧ decode (encode .blk) = .command .blk ∧
      ∃ t, step ({ State.reset with input := [.rst] } : State) = .next t :=
  ⟨⟨_, rfl⟩, ⟨_, rfl⟩, ⟨_, rfl⟩, by decide, by decide, ⟨_, rfl⟩⟩

/-- ReservedOpcodeHasNoEffect and OpcodeAloneSelectsTheCommand, at the first and the last reserved opcode. -/
theorem witness_reserved :
    (opField 0x0600000000000000).toNat = 6 ∧ (opField 0xFFFFFFFFFFFFFFFF).toNat = 255 ∧ State.reset.cfg.wf = true := by
  decide

/-- RstRestoresTheResetState. -/
theorem witness_rst : ({ squareLater with input := [.rst] } : State).input = .rst :: [] := rfl

/-- BlockWithoutCommandKeepsItsState. -/
theorem witness_no_command : squareLater.input = [] ∧ squareLater.cfg.wf = true := by decide

/-- EncodeOfDecodeIsTheCanonicalWord: a word of each opcode. -/
theorem witness_canonical_words :
    canonical 0x0000000000000000 = true ∧ canonical 0x01060000FFFFFFFD = true ∧ canonical 0x020F000000000000 = true ∧
      canonical 0x0345000101000000 = true ∧ canonical 0x0400000000000000 = true ∧
      canonical 0x0500000000000000 = true ∧ canonical 0x0345000201000000 = false := by decide

/-- SetpStoresTheClampedValue, GetpAnswersThePendingRegister, RegisterMapIsTheTable, WrittenRegisterReadsBackClamped: the
addresses where their clauses meet. -/
theorem witness_addresses :
    Param.ofAddr 0 = some .type1 ∧ Param.ofAddr 22 = some .selectorAdsrvibrato ∧ Param.ofAddr 23 = none ∧
      Param.ofAddr 255 = none ∧ (22 : Byte).toNat ≤ 22 ∧ 23 ≤ (23 : Byte).toNat := by decide

/-- GetpAnswersThePendingRegister, WrittenRegisterReadsBackClamped: a `SETP` that completes, registers in range. -/
theorem witness_setp_completes :
    (∃ t, exec (.setp 2 0x02000000) State.reset = .next t) ∧ State.reset.pend.InRange :=
  ⟨⟨_, rfl⟩, witness_invariant_at_reset.pend⟩

/-- SetpStoresTheClampedValue: a value equal to the stored one, in range, and a `SETP` followed by a `BLK`. -/
theorem witness_setp_equal_value :
    Param.ofAddr 7 = some .range2 ∧ 1 = State.reset.pend.get .range2 ∧ Param.range2.lo ≤ s32 1 ∧
      s32 1 ≤ Param.range2.hi ∧ Param.mul1 ≠ .range2 ∧
      ∃ t u, exec (.setp 7 6) State.reset = .next t ∧ exec .blk t = .next u :=
  ⟨by decide, by decide, by decide, by decide, by decide, _, _, rfl, rfl⟩

/-- The state of program P2 after tick 239 (Attack and Decay) with a note event of any kind pending. -/
def pendingAs (trig gate : Bool) : State :=
  { squareLater with latch := { latched.latch with trig := trig, gate := gate } }

/-- BlkPublishesRegistersAndNote: a pending event of each kind, a stage of each kind, and no pending event. -/
theorem witness_blk_clauses :
    State.reset.latch.ev = false ∧
      (∀ trig gate, (pendingAs trig gate).latch.ev = true ∧ (pendingAs trig gate).latch.trig = trig ∧
        (pendingAs trig gate).latch.gate = gate) ∧
      (∀ trig gate, (pendingAs trig gate).ega.stage ≠ .idle ∧ (pendingAs trig gate).ega.stage ≠ .release) ∧
      (let s : State := { State.reset with latch := (pendingAs false false).latch }
      (s.latch.ev = true ∧ s.latch.trig = false ∧ s.latch.gate = false) ∧ s.ega.stage = .idle) := by decide

/-- BlkPublishesRegistersAndNote: nothing pending and no register changed, and a `BLK` that takes over a note. -/
theorem witness_nothing_pending :
    squareLater.latch.ev = false ∧ squareLater.act = squareLater.pend ∧ ∃ t, exec .blk latched = .next t :=
  ⟨rfl, rfl, _, rfl⟩

/-- EachCommandWritesOnlyItsState: each command completes. -/
theorem witness_each_command_completes :
    (∃ t, exec .nop latched = .next t) ∧ (∃ t, exec (.setp 0 1) latched = .next t) ∧
      (∃ t, exec (.getp 0) latched = .next t) ∧ (∃ t, exec (.note 1 true 2) latched = .next t) ∧
      (∃ t, exec .blk latched = .next t) ∧ ∃ t, exec .tick latched = .next t :=
  ⟨⟨_, rfl⟩, ⟨_, rfl⟩, ⟨_, rfl⟩, ⟨_, rfl⟩, ⟨_, rfl⟩, ⟨_, rfl⟩⟩

/-- ControlTrafficWithinABlockIsInaudible: control commands between two ticks. -/
theorem witness_control_traffic :
    ∀ e ∈ [Event.tick (1, 2), Event.ofInstr (.setp 2 16777216), Event.note (69, true, 16777216),
        Event.ofInstr (.getp 2), Event.tick (3, 4)], e ≠ .rst ∧ e.isBlk = false := by decide

/-- UnprogrammedBlockIsSilent: the reset state is quiet; ticks and a block boundary. -/
theorem witness_quiet :
    State.reset.Quiet ∧ ∀ e ∈ [Event.tick (0x01000000, 5), Event.blk, Event.tick (7, 9)],
      e.isTick = true ∨ e.isBlk = true :=
  ⟨⟨by decide, by decide, by decide, by decide, by decide, by decide, by decide⟩, by decide⟩

/-- IdleEnvelopeIsSilent: both ways of having no noise, with an oscillator programmed and a wave running. -/
theorem witness_idle_envelope :
    let s : State := { State.reset with act := squareLater.act, osc1 := squareLater.osc1 }
    s.ega.stage = .idle ∧ s.act.selectorAdsrtremolo = 0 ∧ s.filter = { y1 := 0, y2 := 0, y3 := 0, y4 := 0 } ∧
      (s.whiteIn = 0 ∧ s.pinkIn = 0) ∧ s.act.mulWhiteNoise = 0 ∧ s.act.mulPinkNoise = 0 := by decide

/-- EveryStageLastsItsDuration: a legal envelope, a start strictly inside, the first and the last tick of a stage. -/
theorem witness_durations : smallEg.wf = true ∧ InUnit 8388608 ∧ 0 < smallEg.na ∧ 3 < smallEg.nr := by decide

/-- LevelMovesByAtMostOneSlope, EnvelopeOutputIsTheScaledLevel, EnvelopeTickFollowsItsStage: an envelope of each stage (sequence E1). -/
theorem witness_stages :
    ∀ e ∈ [({ stage := .attack, level := 4194304, elapsed := 1, start := 0 } : Envelope),
        { stage := .decay, level := 14680064, elapsed := 1, start := 16777216 },
        { stage := .sustain, level := 8388608, elapsed := 0, start := 8388608 },
        { stage := .release, level := 6291456, elapsed := 1, start := 8388608 },
        { stage := .idle, level := 0, elapsed := 0, start := 0 },
        { stage := .attack, level := 0, elapsed := 0, start := 0 }],
      smallEg.wf = true ∧ e.Inv smallEg ∧ e.OnLine smallEg := by
  simp only [List.forall_mem_cons, List.not_mem_nil, false_implies, implies_true, Envelope.Inv, Envelope.StageInv,
    Envelope.OnLine]
  decide

/-- EnvelopeTickFollowsItsStage: the last tick of each moving stage (sequence E1), where its two clauses meet. -/
theorem witness_last_ticks :
    ∀ e ∈ [({ stage := .attack, level := 12582912, elapsed := 3, start := 0 } : Envelope),
        { stage := .decay, level := 10485760, elapsed := 3, start := 16777216 },
        { stage := .release, level := 2097152, elapsed := 3, start := 8388608 }],
      smallEg.wf = true ∧ e.Inv smallEg ∧ smallEg.na ≤ e.elapsed.toNat + 1 ∧ ¬e.elapsed.toNat + 1 < smallEg.na := by
  simp only [List.forall_mem_cons, List.not_mem_nil, false_implies, implies_true, Envelope.Inv, Envelope.StageInv]
  decide

/-- EnvelopeOutputIsTheScaledLevel: the post-gain of its fifth clause. -/
theorem witness_full_post_gain : smallEg.pg = ONE := by decide

/-- LfoIncrementFollowsTheRate: the fastest rate at the lowest sample rate of each clause. -/
theorem witness_lfo_rate : 1 ≤ (1 : Nat) ∧ 0 ≤ s32 0x7FFFFFFF ∧ 256 ≤ (256 : Nat) := by decide

/-- TremoloAndVibratoScaling, AmplitudeSelectorCrossfades, FrequencySelectorCrossfades: operands inside, the position where
the two clauses of the frequency selector meet, and its ends. -/
theorem witness_selectors :
    (-ONE ≤ (-1 : Int) ∧ (-1 : Int) ≤ ONE) ∧ (0 ≤ (8388608 : Int) ∧ (8388608 : Int) ≤ ONE) ∧
      (ONE - ONE / 64 ≤ 17039360 ∧ 17039360 ≤ ONE + ONE / 64) ∧
      freqSel 8388608 17039360 ONE = ONE + fmul ONE (8388608 - ONE) ∧
      freqSel 8388608 17039360 ONE = 8388608 + fmul (ONE - ONE) (17039360 - 8388608) := by decide

/-- SineIsBoundedOddAndRising: two phases of the first quarter, the second at its end. -/
theorem witness_first_quarter :
    (0x3FFFFFFF : Word).toNat ≤ (0x40000000 : Word).toNat ∧ (0x40000000 : Word).toNat ≤ 2 ^ 30 := by decide

/-- WaveStaysInUnitRange, WaveEndsAreTheSineAndTheShape, WaveIsTheCrossfadeOfBaseAndShape,
OscillatorStaysWithinItsAmplitude: a generator and operands. -/
theorem witness_generator : (sampleGen 0x40000000).Inv ∧ 0 ≤ (8388608 : Int) ∧ (8388608 : Int) ≤ ONE := by
  unfold Generator.Inv
  decide

/-- WaveIsTheCrossfadeOfBaseAndShape: the clauses on sharpness 0 and on a generator that has drawn nothing yet, and the
fractions where the clauses on the triangle meet. -/
theorem witness_crossfade_clauses :
    (Waveform.square ≠ .sawUp ∧ Waveform.square ≠ .sampleHold ∧ (0 : Int) ≤ ONE) ∧
      (State.reset.osc1.shPrev = 0 ∧ State.reset.osc1.shCur = 0) ∧
      phi 0x3FFFFFFF = 2 ^ 22 - 1 ∧ phi 0x40000000 = 2 ^ 22 ∧ phi 0xBFFFFFFF = 3 * 2 ^ 22 - 1 ∧
      phi 0xC0000000 = 3 * 2 ^ 22 := by decide

/-- WaveEndsAreTheSineAndTheShape, WaveIsTheCrossfadeOfBaseAndShape: the shapes on both sides of their edges (vectors 2.7),
one value for each phase. -/
theorem witness_shape_edges :
    wave .triangle ONE (sampleGen 0x3FFFFF00) = 16777212 ∧ wave .triangle ONE (sampleGen 0x40000000) = 16777216 ∧
      wave .triangle ONE (sampleGen 0xBFFFFF00) = -16777212 ∧ wave .triangle ONE (sampleGen 0xC0000000) = -16777216 ∧
      wave .pulse ONE (sampleGen 0x2FFFFF00) = 0 ∧ wave .pulse ONE (sampleGen 0x30000000) = 16777216 ∧
      wave .pulse ONE (sampleGen 0x4FFFFF00) = 16777216 ∧ wave .pulse ONE (sampleGen 0x50000000) = 0 ∧
      wave .bipolarPulse ONE (sampleGen 0xB0000000) = -16777216 ∧ wave .bipolarPulse ONE (sampleGen 0xD0000000) = 0 := by
  decide

/-- SineInterpolatesItsTable: the last interpolated phase, and the ends of its mirrored and its negated half. -/
theorem witness_sine_table :
    63 < 64 ∧ 2 ^ 24 - 1 < 2 ^ 24 ∧ 63 * 2 ^ 24 + (2 ^ 24 - 1) = 2 ^ 30 - 1 ∧ 2 ^ 30 ≤ 2 ^ 30 ∧ 2 ^ 31 - 1 < 2 ^ 31 ∧
      sinQ (BitVec.ofNat 32 (2 ^ 31 - 2 ^ 30)) = sinQ (BitVec.ofNat 32 (2 ^ 30)) ∧
      sinQ (BitVec.ofNat 32 (2 ^ 30 - 1)) = 16777215 := by decide

/-- NoteIncrementFollowsItsLaw: the lowest note (octave -6), the first note that takes the other branch (octave -2), the
highest (octave 4), at both bounds of the sample rate. -/
theorem witness_notes :
    ((0 : Nat) : Int) - 69 = 12 * -6 + 3 ∧ ((45 : Nat) : Int) - 69 = 12 * -2 + 0 ∧ ((44 : Nat) : Int) - 69 = 12 * -3 + 11 ∧
      ((127 : Nat) : Int) - 69 = 12 * 4 + 10 ∧ (127 : Nat) ≤ 127 ∧ (1 : Nat) ≤ 1 ∧ (12544 : Nat) ≤ 12544 := by decide

/-- TablesHaveTheirCheckValues: its indices at their ends, and a duration of no seconds (R7). -/
theorem witness_durations_in_seconds :
    (1 : Nat) ≤ 1 ∧ samplesOfSeconds 0 1 48000 = 1 ∧ 63 < 64 ∧ -12 ≤ (11 : Int) ∧ (11 : Int) < 12 := by decide

/-- PrimitivesFollowTheirLaws: operands at the ends of the fix range and past them, a clamp between equal bounds, the
smallest divisor. -/
theorem witness_primitives :
    sat32 (-2 ^ 31 - 1) = -2 ^ 31 ∧ sat32 (2 ^ 31) = 2 ^ 31 - 1 ∧ fmul ONE (-2 ^ 31) = -2 ^ 31 ∧
      fmul ONE (2 ^ 31 - 1) = 2 ^ 31 - 1 ∧ clamp 8 7 7 = 7 ∧ clamp 6 7 7 = 7 ∧ rnd (-3) 1 = -3 ∧ rnd (-1) 2 = 0 ∧
      rnd 1 2 = 1 ∧ s32 0x7FFFFFFF = 2 ^ 31 - 1 ∧ s32 0x80000000 = -2 ^ 31 ∧
      lerp (-2 ^ 30) (2 ^ 30 - 1) ONE = 2 ^ 30 - 1 := by decide

/-- XorShiftKeepsNonzero. -/
theorem witness_nonzero_word : (0x80000000 : Word) ≠ 0 := by decide

/-- AdvanceAccumulatesThePhase: the increments on both sides of the wrap (vectors 2.7). -/
theorem witness_wrap :
    (0xFFFFFF00 : Word).toNat + (0x000000FF : Word).toNat < 2 ^ 32 ∧
      2 ^ 32 ≤ (0xFFFFFF00 : Word).toNat + (0x00000100 : Word).toNat := by decide

/-- DerivedIncrementsAreMultiplicative: the ends of the table. -/
theorem witness_semitones : -12 ≤ (-12 : Int) ∧ (12 : Int) ≤ 12 ∧ (11 : Int) < 12 ∧ det30 11 < det30 12 := by decide

/-- DisabledOscillatorThreeIsSilent: oscillator 3 disabled and enabled. -/
theorem witness_switch :
    s32 squareLater.act.switch3 = 0 ∧
      s32 ({ State.reset with act := { Params.reset with switch3 := 1 } } : State).act.switch3 = 1 := by decide

/-- NoiseIsTheChosenVoice, CutoffIsClampedAndMonotone: gains and levels inside and at the ends. -/
theorem witness_gains :
    (0 ≤ (2097152 : Int) ∧ (2097152 : Int) ≤ ONE) ∧ Cfg.ref.wf = true ∧ 0 ≤ (0 : Int) ∧ 0 ≤ ONE ∧ ONE ≤ ONE := by decide

/-- SoftClipIsOddAndBounded: the edge of the flat part, 1.5. -/
theorem witness_flat_part : 3 * ONE / 2 = 25165824 ∧ softClip 25165824 = ONE ∧ softClip (-25165824) = -ONE := by decide

/-- LadderStaysBounded (its command clause: witness_each_command_completes): the extreme operands of trace C, the ends of
the resonance. -/
theorem witness_ladder :
    ({ y1 := u32 ONE, y2 := u32 ONE, y3 := u32 ONE, y4 := u32 ONE } : Filter).Inv ∧
      (-4 * ONE ≤ -3 * ONE ∧ -3 * ONE ≤ 4 * ONE) ∧ (0 ≤ (16777215 : Int) ∧ (16777215 : Int) ≤ ONE) ∧
      0 ≤ 4 * ONE ∧ resGain ONE = 4 * ONE ∧ resGain 0 = 0 := by
  unfold Filter.Inv
  decide

/-- LadderStaysBounded: the active registers at reset are in range. -/
theorem witness_active_in_range : State.reset.act.InRange := witness_invariant_at_reset.act

/-- IllegalConfigurationIsRefused: an illegal configuration. -/
theorem witness_illegal : ({ State.reset with cfg := { Cfg.ref with fs := 80 } } : State).cfg.wf = false := by decide
end

section
/-! SUPPORT. The legal configurations (00_scope.md R6, 93_implementation_defined.md U16) as a proposition, and the laws of
the arithmetic primitives (00_scope.md R13) that the datapath's own lemmas do not need. -/

namespace Sys2Proof

theorem durationRange_iff (n : Nat) : durationRange n = true ↔ 1 ≤ n ∧ n < 2 ^ 32 := by
  simp only [durationRange, Bool.and_eq_true, decide_eq_true_eq]
  omega

theorem unitRange_iff (x : Int) : unitRange x = true ↔ 0 ≤ x ∧ x ≤ Machine.ONE := by
  simp [unitRange]

theorem EgCfg.wf_iff (e : EgCfg) : e.wf = true ↔
    (1 ≤ e.na ∧ e.na < 2 ^ 32) ∧ (1 ≤ e.nd ∧ e.nd < 2 ^ 32) ∧ (1 ≤ e.nr ∧ e.nr < 2 ^ 32) ∧
    (0 ≤ e.sus ∧ e.sus ≤ Machine.ONE) ∧ (0 ≤ e.pg ∧ e.pg ≤ Machine.ONE) := by
  simp only [EgCfg.wf, Bool.and_eq_true, durationRange_iff, unitRange_iff, and_assoc]

theorem Cfg.wf_iff (c : Cfg) : c.wf = true ↔
    80 ≤ c.fs ∧ (∀ e : EgCfg, e = c.ega ∨ e = c.egf → e.wf = true) ∧
    (0 ≤ c.lfoT.sharp ∧ c.lfoT.sharp ≤ Machine.ONE) ∧ (0 ≤ c.lfoV.sharp ∧ c.lfoV.sharp ≤ Machine.ONE) ∧
    Machine.cutMinInc c ≤ Machine.CUT_MAX_INC := by
  simp only [Cfg.wf, Bool.and_eq_true, decide_eq_true_eq, unitRange_iff, forall_eq_or_imp, forall_eq, and_assoc]

end Sys2Proof

namespace Sys2Proof.Machine

/-- A step of an instance that is none of R6's (93_implementation_defined.md U16). -/
theorem step_of_not_wf {s : State} (hc : s.cfg.wf = false) : step s = .refused .illegalConfiguration := by
  simp [step, hc]

theorem sat32_of_lt {x : Int} (h : x < -2147483648) : sat32 x = -2147483648 := by
  unfold sat32
  omega

theorem sat32_of_gt {x : Int} (h : 2147483647 < x) : sat32 x = 2147483647 := by
  unfold sat32
  omega

/-- A factor in `0 .. ONE` never saturates the product by a fix: it is the floored product itself (R13). -/
theorem fmul_eq_floor {a b : Int} (ha : 0 ≤ a) (ha1 : a ≤ ONE) (hb : -2147483648 ≤ b) (hb1 : b ≤ 2147483647) :
    fmul a b = a * b / 16777216 := by
  rcases Int.le_total 0 b with h | h
  · obtain ⟨hlo, hhi⟩ := mul_div_one_nonneg ha ha1 h
    exact sat32_of_mem (by omega) (by omega)
  · obtain ⟨hlo, hhi⟩ := mul_div_one_nonpos ha ha1 h
    exact sat32_of_mem (by omega) (by omega)

/-- The product by a factor in `0 .. ONE` lies between 0 and the other operand (R13). -/
theorem fmul_between {a b : Int} (ha : 0 ≤ a) (ha1 : a ≤ ONE) (hb : -2147483648 ≤ b) (hb1 : b ≤ 2147483647) :
    min 0 b ≤ fmul a b ∧ fmul a b ≤ max 0 b :=
  fmul_mem ha ha1 (by omega) (by omega) (by omega) (by omega) (by omega) (by omega)

theorem clamp_of_lt {x lo : Int} (hi : Int) (h : x < lo) : clamp x lo hi = lo := if_pos h

theorem clamp_of_gt {x lo hi : Int} (hle : lo ≤ hi) (h : hi < x) : clamp x lo hi = hi := by
  rw [clamp_eq_max_min hle]
  omega

/-- `rnd(num / den)` is the greatest integer `k` with `k - 1/2 <= num / den`: the nearest one, ties upward (R13). -/
theorem rnd_nearest (num : Int) {den : Int} (h : 0 < den) :
    2 * den * rnd num den ≤ 2 * num + den ∧ 2 * num + den < 2 * den * (rnd num den + 1) :=
  have hpos : 0 < 2 * den := by omega
  ⟨Int.mul_ediv_self_le hpos.ne', Int.lt_mul_ediv_self_add hpos |>.trans_eq (by rw [rnd, mul_add, mul_one])⟩

theorem s32_eq_ite (w : Word) :
    s32 w = if (w.toNat : Int) < 2147483648 then (w.toNat : Int) else w.toNat - 4294967296 := by
  simp only [s32, BitVec.toInt_eq_toNat_cond]
  split <;> split <;> omega

/-- The crossfade of two sources whose difference is a fix lies between them (R13). -/
theorem lerp_between {a b t : Int} (ht : 0 ≤ t) (ht1 : t ≤ ONE) (hd : -2147483648 ≤ b - a) (hd1 : b - a ≤ 2147483647) :
    min a b ≤ lerp a b t ∧ lerp a b t ≤ max a b := by
  obtain ⟨hlo, hhi⟩ := fmul_between ht ht1 hd hd1
  unfold lerp
  omega

/-- Settles O59: each primitive by its own law of R13. -/
theorem primitivesFollowTheirLaws : Obligations.PrimitivesFollowTheirLaws := by
  unfold Obligations.PrimitivesFollowTheirLaws
  norm_num only -- the powers of two become the numerals of the model and its laws
  refine ⟨fun x => ⟨sat32_of_lt, sat32_of_gt, sat32_of_mem⟩, fun a b => rfl, ?product, by decide, by decide,
    fun x lo hi hle => ⟨clamp_of_lt hi, clamp_of_gt hle, clamp_of_mem⟩,
    fun num den hden => ⟨rfl, rnd_nearest num hden⟩, s32_eq_ite, toNat_u32, ?crossfade⟩
  case product =>
    intro a b ha ha1 hb hb1
    obtain ⟨hlo, hhi⟩ := fmul_between ha ha1 hb hb1
    exact ⟨fmul_eq_floor ha ha1 hb hb1, hlo, hhi, fmul_one_left hb hb1, fmul_zero_left b⟩
  case crossfade =>
    intro a b t ht ht1 hd hd1
    obtain ⟨hlo, hhi⟩ := lerp_between ht ht1 hd hd1
    exact ⟨rfl, hlo, hhi, lerp_zero a b, lerp_one hd hd1⟩

/-- Settles O10: `step` refuses by name what `Cfg.wf` rejects, and `Cfg.wf` is R6's ranges with U16's cutoff bound. -/
theorem illegalConfigurationIsRefused : Obligations.IllegalConfigurationIsRefused := by
  unfold Obligations.IllegalConfigurationIsRefused
  refine ⟨fun s => step_of_not_wf, fun c => ?_⟩
  simp only [Cfg.wf_iff, EgCfg.wf_iff]

end Sys2Proof.Machine
end

section
/-! SUPPORT. What keeps the invariant of 10_state.md R32, part by part: the registers, an envelope through its gates and
ticks, a generator through `Advance`, the filter through `Ladder`. -/

namespace Sys2Proof.Machine

theorem s32_u32_of_unit {x : Int} (h : 0 ≤ x ∧ x ≤ ONE) : s32 (u32 x) = x := by
  simp only [ONE] at h
  exact s32_u32 (by omega) (by omega)

theorem inUnit_u32 {x : Int} (h : 0 ≤ x ∧ x ≤ ONE) : InUnit (u32 x) := by
  rwa [InUnit, s32_u32_of_unit h]

theorem inUnit_zero : InUnit 0 := by decide

theorem inSample_zero : InSample 0 := by decide

theorem inSignal_zero : InSignal 0 := by decide

-- The registers

theorem Params.reset_inRange : Params.reset.InRange := fun p => by
  simpa only [Params.reset_get, Param.resetWord, Param.s32_u32_clampP] using p.clampP_mem 0

/-- The clamped store keeps a register file in range (R22). -/
theorem Params.InRange.set {f : Params} (h : f.InRange) (p : Param) (v : Word) :
    (f.set p (u32 (setpValue p v))).InRange := fun q => by
  by_cases hq : q = p
  · subst hq
    simpa only [Params.get_set_self, setpValue, Param.s32_u32_clampP] using q.clampP_mem (s32 v)
  · simpa only [Params.get_set_of_ne f _ hq] using h q

-- The envelopes

section
variable {c : EgCfg} {e : Envelope}

theorem Envelope.stageInv_of_idle (h : e.stage = .idle) : e.StageInv c ↔ s32 e.level = 0 ∧ e.elapsed = 0 := by
  rw [Envelope.StageInv, h]

theorem Envelope.stageInv_of_attack (h : e.stage = .attack) : e.StageInv c ↔ e.elapsed.toNat < c.na := by
  rw [Envelope.StageInv, h]

theorem Envelope.stageInv_of_decay (h : e.stage = .decay) :
    e.StageInv c ↔ e.elapsed.toNat < c.nd ∧ s32 e.start = ONE := by
  rw [Envelope.StageInv, h]

theorem Envelope.stageInv_of_sustain (h : e.stage = .sustain) :
    e.StageInv c ↔ s32 e.level = c.sus ∧ e.elapsed = 0 := by
  rw [Envelope.StageInv, h]

theorem Envelope.stageInv_of_release (h : e.stage = .release) : e.StageInv c ↔ e.elapsed.toNat < c.nr := by
  rw [Envelope.StageInv, h]

theorem Envelope.reset_inv (c : EgCfg) : Envelope.reset.Inv c :=
  ⟨inUnit_zero, inUnit_zero, (stageInv_of_idle rfl).2 (by decide)⟩

/-- The first sample of a stage is inside the stage: no duration of R6 is 0. -/
theorem Envelope.Inv.gateOn (hc : c.wf = true) (h : e.Inv c) : e.gateOn.Inv c := by
  obtain ⟨⟨hna, -⟩, -⟩ := (EgCfg.wf_iff c).1 hc
  obtain ⟨hlevel, -, -⟩ := h
  exact ⟨hlevel, hlevel, (stageInv_of_attack rfl).2 hna⟩

theorem Envelope.Inv.gateOff (hc : c.wf = true) (h : e.Inv c) : e.gateOff.Inv c := by
  obtain ⟨-, -, ⟨hnr, -⟩, -⟩ := (EgCfg.wf_iff c).1 hc
  rcases e.gateOff_cases with ⟨-, hoff⟩ | ⟨-, hoff⟩
  · rwa [hoff]
  · obtain ⟨hlevel, -, -⟩ := h
    rw [hoff]
    exact ⟨hlevel, hlevel, (stageInv_of_release rfl).2 hnr⟩

/-- The gates of a pending note event keep the invariant of an envelope (R91). -/
theorem Envelope.Inv.takeGates (hc : c.wf = true) (h : e.Inv c) (l : NoteLatch) : (e.takeGates l).Inv c := by
  have hon : (if l.trig then e.gateOn else e).Inv c := by
    split
    · exact h.gateOn hc
    · exact h
  unfold Envelope.takeGates
  simp only
  split
  · exact hon
  · exact hon.gateOff hc

/-- The end of a stage, in terms of the stage it leads to (R114, R115, R117). -/
theorem Envelope.arrive_inv {st : Stage} {x : Int} (hx : 0 ≤ x ∧ x ≤ ONE) (hs : (Envelope.arrive st x).StageInv c) :
    (Envelope.arrive st x).Inv c :=
  ⟨inUnit_u32 hx, inUnit_u32 hx, hs⟩

theorem toNat_ofNat_lt {k n : Nat} (h : k < n) : (BitVec.ofNat 32 k).toNat < n :=
  (BitVec.toNat_ofNat k 32 ▸ Nat.mod_le _ _).trans_lt h

/-- A tick keeps the invariant of an envelope: along the line of its stage and into the next one (R113 to R117). -/
theorem Envelope.Inv.tick (hc : c.wf = true) (h : e.Inv c) : (egTick c e).Inv c := by
  obtain ⟨-, ⟨hnd, -⟩, -, hsus, -⟩ := (EgCfg.wf_iff c).1 hc
  obtain ⟨hlevel, hstart, hstage⟩ := h
  have hsus' : s32 (u32 c.sus) = c.sus := s32_u32_of_unit hsus
  rcases egTick_cases c e with ⟨hs, ht⟩ | ⟨-, -, ht⟩ | ⟨hs, hn, ht⟩ | ⟨-, -, ht⟩ | ⟨hs, hn, ht⟩ | ⟨hs, ht⟩ |
      ⟨-, -, ht⟩ | ⟨hs, hn, ht⟩ <;> rw [ht]
  · -- Idle holds 0
    obtain ⟨-, helapsed⟩ := (stageInv_of_idle hs).1 hstage
    exact ⟨inUnit_zero, hstart, Iff.mpr (stageInv_of_idle hs) ⟨s32_zero, helapsed⟩⟩
  · -- Attack ends
    exact arrive_inv (by decide) ((stageInv_of_decay rfl).2 ⟨hnd, by decide⟩)
  · -- Attack goes on
    have hline := rising_mem hstart.2 hn.le (Nat.zero_lt_of_lt hn)
    exact ⟨inUnit_u32 ⟨hstart.1.trans hline.1, hline.2⟩, hstart, Iff.mpr (stageInv_of_attack hs) (toNat_ofNat_lt hn)⟩
  · -- Decay ends
    exact arrive_inv hsus ((stageInv_of_sustain rfl).2 ⟨hsus', rfl⟩)
  · -- Decay goes on
    obtain ⟨-, hone⟩ := (stageInv_of_decay hs).1 hstage
    have hline := falling_mem (hone ▸ hsus.2 : c.sus ≤ s32 e.start) hn.le (Nat.zero_lt_of_lt hn)
    exact ⟨inUnit_u32 ⟨hsus.1.trans hline.1, hline.2.trans hstart.2⟩, hstart,
      Iff.mpr (stageInv_of_decay hs) ⟨toNat_ofNat_lt hn, hone⟩⟩
  · -- Sustain holds its level
    obtain ⟨-, helapsed⟩ := (stageInv_of_sustain hs).1 hstage
    exact ⟨inUnit_u32 hsus, hstart, Iff.mpr (stageInv_of_sustain hs) ⟨hsus', helapsed⟩⟩
  · -- Release ends
    exact arrive_inv (by decide) ((stageInv_of_idle rfl).2 (by decide))
  · -- Release goes on
    have hline := falling_mem hstart.1 hn.le (Nat.zero_lt_of_lt hn)
    exact ⟨inUnit_u32 ⟨hline.1, hline.2.trans hstart.2⟩, hstart, Iff.mpr (stageInv_of_release hs) (toNat_ofNat_lt hn)⟩

end

-- The generators

/-- A word equal to its own shift to the left by 13 or 5 is 0: `2^k - 1` is odd, so `x * 2^k = x` modulo `2^32` makes
`x` a multiple of `2^32`. -/
theorem xor_shiftLeft_ne_zero {x : Word} (hx : x ≠ 0#32) : x ^^^ (x <<< 13) ≠ 0#32 ∧ x ^^^ (x <<< 5) ≠ 0#32 := by
  rw [Ne, Ne, BitVec.xor_eq_zero_iff, BitVec.xor_eq_zero_iff]
  simp only [← BitVec.toNat_inj, ne_eq, BitVec.toNat_shiftLeft, Nat.shiftLeft_eq, BitVec.toNat_ofNat] at hx ⊢
  omega

/-- A word equal to its own shift to the right by 17 is 0: the shift divides by `2^17`. -/
theorem xor_ushiftRight_ne_zero {x : Word} (hx : x ≠ 0#32) : x ^^^ (x >>> 17) ≠ 0#32 := by
  rw [Ne, BitVec.xor_eq_zero_iff]
  simp only [← BitVec.toNat_inj, ne_eq, BitVec.toNat_ushiftRight, Nat.shiftRight_eq_div_pow,
    BitVec.toNat_ofNat] at hx ⊢
  omega

/-- No non-zero word is followed by 0 (R153). -/
theorem xorShift32_ne_zero {x : Word} (hx : x ≠ 0) : xorShift32 x ≠ 0 :=
  (xor_shiftLeft_ne_zero (xor_ushiftRight_ne_zero (xor_shiftLeft_ne_zero hx).1)).2

/-- The value a new cycle draws: the top 25 bits of a word, less `ONE` (R164). -/
theorem newCycle_shCur_inSample (g : Generator) : InSample (newCycle g).shCur := by
  have := (xorShift32 g.lfsr).isLt
  simp only [newCycle, InSample, ONE]
  rw [s32_u32 (by omega) (by omega)]
  omega

theorem Generator.reset_inv {seed : Word} (h : seed ≠ 0) : (Generator.reset seed).Inv :=
  ⟨h, inSample_zero, inSample_zero⟩

theorem Generator.Inv.newCycle {g : Generator} (h : g.Inv) : (newCycle g).Inv := by
  obtain ⟨hlfsr, -, hcur⟩ := h
  exact ⟨xorShift32_ne_zero hlfsr, hcur, newCycle_shCur_inSample g⟩

/-- `Advance` keeps the invariant of a generator, wrap or not: the invariant says nothing of the phase (R163, R164). -/
theorem Generator.Inv.advance {g : Generator} (h : g.Inv) (inc : Word) : (advance g inc).Inv := by
  rcases advance_cases g inc with ⟨-, ha⟩ | ⟨-, ha⟩ <;> rw [ha]
  · exact h
  · exact h.newCycle

-- The filter

/-- `-ONE <= SoftClip(u) <= ONE` (R194). -/
theorem softClip_mem (u : Int) : -ONE ≤ softClip u ∧ softClip u ≤ ONE := by
  unfold softClip
  split
  · have := softClipAbs_mem (-u)
    omega
  · have := softClipAbs_mem u
    omega

theorem cutMinInc_nonneg (c : Cfg) : 0 ≤ cutMinInc c := by
  unfold cutMinInc rnd
  positivity

/-- The cutoff increment of a legal configuration is a phase of the first quarter (R191). -/
theorem cutoffInc_mem {c : Cfg} (hc : c.wf = true) (envF cutoffFact : Int) :
    0 ≤ cutoffInc c envF cutoffFact ∧ cutoffInc c envF cutoffFact ≤ CUT_MAX_INC := by
  obtain ⟨-, -, -, -, hmin⟩ := (Cfg.wf_iff c).1 hc
  obtain ⟨hlo, hhi⟩ := clamp_bounds (fmul envF cutoffFact * k20kInc c / 16777216) hmin
  exact ⟨(cutMinInc_nonneg c).trans hlo, hhi⟩

/-- The sine of the first quarter is not negative (R152). -/
theorem sinQ_nonneg {p : Word} (h : p.toNat < 1073741824) : 0 ≤ sinQ p := by
  have hq : p.toNat / 1073741824 = 0 := Nat.div_eq_of_lt h
  simpa [sinQ, hq] using (sinQuarter_mem (Nat.mod_lt p.toNat (by norm_num)).le).1

/-- The stage coefficient of a phase of the first quarter lies in `0 .. ONE` (R192). -/
theorem cutCoef_mem {ci : Int} (h0 : 0 ≤ ci) (h1 : ci ≤ CUT_MAX_INC) : 0 ≤ cutCoef ci ∧ cutCoef ci ≤ ONE := by
  have hp := toNat_u32 ci
  simp only [CUT_MAX_INC] at h1
  exact ⟨sinQ_nonneg (by omega), (sinQ_mem (u32 ci)).2⟩

/-- The four poles keep the filter's values in range, each fed with the value before it in range (R195, R196 a). -/
theorem Filter.Inv.ladder {f : Filter} (h : f.Inv) (x k : Int) {g : Int} (hg : 0 ≤ g ∧ g ≤ ONE) :
    (ladder f x g k).Inv := by
  obtain ⟨h1, h2, h3, h4⟩ := h
  have hpole {y : Word} {i : Int} (hy : InSignal y) (hi : -ONE ≤ i ∧ i ≤ ONE) : InSignal (poleStep y i g) :=
    poleStep_mem hg.1 hg.2 hy.1 hy.2 hi.1 hi.2
  have p1 := hpole h1 (softClip_mem (x - fmul k (s32 f.y4)))
  have p2 := hpole h2 p1
  have p3 := hpole h3 p2
  exact ⟨p1, p2, p3, hpole h4 p3⟩

end Sys2Proof.Machine
end

section
/-! SUPPORT. The invariant of the machine (10_state.md R32): at reset, through every command and through every step. -/

namespace Sys2Proof.Machine

theorem State.resetWith_inv {c : Cfg} (hc : c.wf = true) : (State.resetWith c).Inv where
  cfg := hc
  pend := Params.reset_inRange
  act := Params.reset_inRange
  latchVel := inUnit_zero
  trigEv := nofun
  noteVel := inUnit_zero
  noteInc := rfl
  ega := Envelope.reset_inv _
  egf := Envelope.reset_inv _
  osc1 := Generator.reset_inv (by decide)
  osc2 := Generator.reset_inv (by decide)
  osc3 := Generator.reset_inv (by decide)
  lfoT := Generator.reset_inv (by decide)
  lfoV := Generator.reset_inv (by decide)
  filter := ⟨inSignal_zero, inSignal_zero, inSignal_zero, inSignal_zero⟩

section
variable {s : State}

/-- Both envelopes of a legal configuration have legal parameters (00_scope.md R6). -/
theorem State.Inv.egCfg (h : s.Inv) : s.cfg.ega.wf = true ∧ s.cfg.egf.wf = true := by
  obtain ⟨-, heg, -⟩ := (Cfg.wf_iff s.cfg).1 h.cfg
  exact ⟨heg _ (.inl rfl), heg _ (.inr rfl)⟩

theorem State.Inv.paramWrite (h : s.Inv) (a : Byte) (v : Word) : (s.paramWrite a v).Inv := by
  rcases hp : Param.ofAddr a with _ | p
  · rwa [State.paramWrite_of_none s v hp]
  · rw [State.paramWrite_of_some s v hp]
    exact { h with pend := h.pend.set p v }

/-- What a `NOTE` writes into the latch: a velocity in range, and `np_ev` with `np_trig` (R88). -/
theorem State.Inv.recordNote (h : s.Inv) (a : Byte) (gate : Bool) (v : Word) :
    ({ s with latch := s.latch.record a gate v } : State).Inv :=
  { h with
    latchVel := inUnit_u32 (clamp_bounds (s32 v) (by decide))
    trigEv := fun _ => rfl }

theorem State.Inv.publish (h : s.Inv) : s.publish.Inv := { h with act := h.pend }

theorem State.Inv.takeNote (h : s.Inv) : s.takeNote.Inv :=
  { h with
    trigEv := nofun
    noteVel := h.latchVel
    noteInc := rfl
    ega := h.ega.takeGates h.egCfg.1 s.latch
    egf := h.egf.takeGates h.egCfg.2 s.latch }

theorem State.Inv.blockBoundary (h : s.Inv) : s.blockBoundary.Inv := by
  unfold State.blockBoundary
  split
  · exact h.publish.takeNote
  · exact h.publish

theorem State.Inv.tickState (h : s.Inv) : s.tickState.Inv :=
  have hcut := cutoffInc_mem h.cfg (tickEnvF s) (s32 s.act.cutoffFact)
  { h with
    ega := h.ega.tick h.egCfg.1
    egf := h.egf.tick h.egCfg.2
    osc1 := h.osc1.advance _
    osc2 := h.osc2.advance _
    osc3 := h.osc3.advance _
    lfoT := h.lfoT.advance _
    lfoV := h.lfoV.advance _
    filter := h.filter.ladder _ _ (cutCoef_mem hcut.1 hcut.2) }

/-- The invariant says nothing of the ports (R30). -/
theorem State.Inv.withPorts (h : s.Inv) (input : List Event) (white pink : Word) (rsp : List Word)
    (out : List (Word × Word)) :
    ({ s with input := input, whiteIn := white, pinkIn := pink, rsp := rsp, out := out } : State).Inv :=
  { h with }

theorem State.Inv.takeSamples (h : s.Inv) (i : Instr) (white pink : Word) : (s.takeSamples i white pink).Inv := by
  by_cases hi : i = .tick
  · subst hi
    exact h.withPorts _ _ _ _ _
  · rwa [State.takeSamples_of_ne s white pink hi]

/-- `rst` restores the invariant whatever was lost of it but the configuration (R225). -/
theorem State.applyReset_inv (hc : s.cfg.wf = true) : s.applyReset.Inv :=
  (State.resetWith_inv hc).withPorts _ _ _ _ _

/-- Every command keeps the invariant (R32). -/
theorem State.Inv.exec {t : State} (h : s.Inv) {i : Instr} (he : exec i s = .next t) : t.Inv := by
  cases i with
  | nop =>
    obtain rfl : s = t := Host.Outcome.next.inj he
    exact h
  | setp a v =>
    obtain rfl : s.paramWrite a v = t := Host.Outcome.next.inj he
    exact h.paramWrite a v
  | getp a =>
    obtain rfl : s.respond (s.paramRead a) = t := Host.Outcome.next.inj he
    exact h.withPorts _ _ _ _ _
  | note a gate v =>
    obtain rfl : { s with latch := s.latch.record a gate v } = t := Host.Outcome.next.inj he
    exact h.recordNote a gate v
  | blk =>
    obtain rfl : s.blockBoundary = t := Host.Outcome.next.inj he
    exact h.blockBoundary
  | tick =>
    obtain rfl : s.tickState.emit (tickOut s) (tickOut s) = t := Host.Outcome.next.inj he
    exact h.tickState.withPorts _ _ _ _ _

end

/-- Settles O3: whatever the event, by what the step can have done with it. -/
theorem everyStepKeepsTheInvariant : Obligations.EveryStepKeepsTheInvariant := by
  unfold Obligations.EveryStepKeepsTheInvariant
  intro s t h hstep
  obtain ⟨-, ⟨-, rfl⟩ | ⟨rest, -, rfl⟩ | ⟨-, -, -, rest, -, -, -, rfl⟩ | ⟨-, a, b, rest, i, -, -, he⟩⟩ := step_cases hstep
  · exact h
  · exact State.applyReset_inv h.cfg
  · exact h.withPorts rest _ _ _ _
  · exact ((h.withPorts rest _ _ _ _).takeSamples i a b).exec he

/-- Settles O2: the reset state by its fields; an Idle envelope is on its line. -/
theorem invariantHoldsAtReset : Obligations.InvariantHoldsAtReset := by
  unfold Obligations.InvariantHoldsAtReset
  intro c hc
  exact ⟨State.resetWith_inv hc, trivial, trivial⟩

end Sys2Proof.Machine
end

section
/-! SUPPORT. The frame of the commands (10_state.md R33) and the register map (R20). -/

namespace Sys2Proof.Machine

/-- A block boundary keeps the latched note, and the level of both envelopes (40_commands.md R91). -/
theorem State.blockBoundary_keeps (s : State) :
    s.blockBoundary.latch.pitch = s.latch.pitch ∧ s.blockBoundary.latch.vel = s.latch.vel ∧
    s.blockBoundary.latch.gate = s.latch.gate ∧
    s.blockBoundary.ega.level = s.ega.level ∧ s.blockBoundary.egf.level = s.egf.level := by
  rcases hev : s.latch.ev with _ | _
  · simp [s.blockBoundary_of_not_ev hev]
  · simp [s.blockBoundary_of_ev hev, NoteLatch.cleared]

/-- Settles O27, command by command: each clause about another command is the frame of the operation it runs. -/
theorem eachCommandWritesOnlyItsState : Obligations.EachCommandWritesOnlyItsState := by
  unfold Obligations.EachCommandWritesOnlyItsState
  intro i s t h
  obtain ⟨hcfg, hinput, hwhite, hpink⟩ := exec_ports h
  refine ⟨hcfg, hinput, hwhite, hpink, ?_⟩
  cases i with
  | nop =>
    obtain rfl : s = t := Host.Outcome.next.inj h
    simp
  | setp a v =>
    obtain rfl : s.paramWrite a v = t := Host.Outcome.next.inj h
    simp
  | getp a =>
    obtain rfl : s.respond (s.paramRead a) = t := Host.Outcome.next.inj h
    simp
  | note a gate v =>
    obtain rfl : { s with latch := s.latch.record a gate v } = t := Host.Outcome.next.inj h
    simp
  | blk =>
    obtain rfl : s.blockBoundary = t := Host.Outcome.next.inj h
    simpa using s.blockBoundary_keeps
  | tick =>
    obtain rfl : s.tickState.emit (tickOut s) (tickOut s) = t := Host.Outcome.next.inj h
    simp

/-- Settles O18: the 23 rows by evaluation, and no register above them. -/
theorem registerMapIsTheTable : Obligations.RegisterMapIsTheTable := by
  unfold Obligations.RegisterMapIsTheTable
  exact ⟨by decide, fun _ => Param.ofAddr_eq_none⟩

end Sys2Proof.Machine
end

section
/-! SUPPORT. Every command and every step of a legal configuration answers a next state (20_memory.md R60), and a step on a
transfer is its command (R56). -/

namespace Sys2Proof.Machine

/-- No command is refused and none faults (20_memory.md R60, 60_exceptions.md R205). -/
theorem exec_completes (i : Instr) (s : State) : ∃ t, exec i s = .next t := by
  cases i <;> exact ⟨_, rfl⟩

/-- Whatever the host delivers, a step of a legal configuration completes (R60). -/
theorem step_completes {s : State} (hc : s.cfg.wf = true) : ∃ t, step s = .next t := by
  rcases hi : s.input with _ | ⟨⟨w, a, b⟩ | _, rest⟩
  · exact ⟨_, step_idle hc hi⟩
  · rcases hd : decode w with i | op
    · rw [step_command hc hi hd]
      exact exec_completes i _
    · exact ⟨_, step_reserved hc hi hd⟩
  · exact ⟨_, step_rst hc hi⟩

/-- Settles O9: command by command, then event by event. -/
theorem everyCommandCompletesFromEveryState : Obligations.EveryCommandCompletesFromEveryState := by
  unfold Obligations.EveryCommandCompletesFromEveryState
  exact ⟨exec_completes, fun _ => step_completes⟩

/-- Settles O5: the step on a command, and which of the sample ports' words the command takes. -/
theorem stepRunsTheDecodedCommand : Obligations.StepRunsTheDecodedCommand := by
  unfold Obligations.StepRunsTheDecodedCommand
  intro s w white pink rest i hc hi hd
  rw [step_command hc hi hd]
  constructor
  · rintro rfl
    rw [State.takeSamples_tick]
  · intro hn
    rw [State.takeSamples_of_ne _ _ _ hn]

end Sys2Proof.Machine
end

section
/-! SUPPORT. The parameter space as a memory (20_memory.md R50, R54, R57): what a read returns after a write, a second write to
the same address, and writing back what was read. -/

namespace Sys2Proof.Machine

@[simp] theorem Params.set_set (f : Params) (p : Param) (v w : Word) : (f.set p v).set p w = f.set p w := by
  cases p <;> rfl

theorem Param.clampP_eq_max_min (p : Param) (v : Int) : p.clampP v = max p.lo (min p.hi v) :=
  clamp_eq_max_min p.lo_le_hi

/-- A write is seen at once by a read of the same address (R57 a). -/
theorem State.paramRead_paramWrite (s : State) {a : Byte} {p : Param} (v : Word) (h : Param.ofAddr a = some p) :
    (s.paramWrite a v).paramRead a = u32 (setpValue p v) := by
  rw [State.paramRead_of_some _ h, State.paramWrite_of_some s v h, Params.get_set_self]

/-- Of two writes to the same address only the last is left (R57 d). -/
theorem State.paramWrite_paramWrite (s : State) (a : Byte) (v w : Word) :
    (s.paramWrite a v).paramWrite a w = s.paramWrite a w := by
  rcases h : Param.ofAddr a with _ | p
  · rw [State.paramWrite_of_none s v h]
  · simp only [State.paramWrite_of_some _ _ h, Params.set_set]

/-- Storing the content of a register that is in range stores the same word: the clamp lets it through (R54). -/
theorem Params.InRange.set_setpValue_get {f : Params} (h : f.InRange) (p : Param) :
    f.set p (u32 (setpValue p (f.get p))) = f := by
  obtain ⟨hlo, hhi⟩ := h p
  rw [setpValue, Param.clampP, clamp_of_mem hlo hhi, u32_s32, Params.set_get_self]

/-- Writing back the word read changes nothing, at any address (R54). -/
theorem State.paramWrite_paramRead {s : State} (h : s.pend.InRange) (a : Byte) :
    s.paramWrite a (s.paramRead a) = s := by
  rcases hp : Param.ofAddr a with _ | p
  · exact State.paramWrite_of_none s _ hp
  · rw [State.paramWrite_of_some s _ hp, State.paramRead_of_some s hp, h.set_setpValue_get]

/-- Settles O21: the three laws of the parameter space. -/
theorem writtenRegisterReadsBackClamped : Obligations.WrittenRegisterReadsBackClamped := by
  unfold Obligations.WrittenRegisterReadsBackClamped
  refine ⟨fun s a v p hp => ⟨s.paramWrite a v, exec_setp a v s, ?readBack⟩, ?lastWins, ?writeBack⟩
  case readBack =>
    rw [exec_getp, State.paramRead_paramWrite s v hp, State.respond, State.paramWrite_rsp, setpValue,
      Param.clampP_eq_max_min]
  case lastWins =>
    intro s a v w t h
    obtain rfl : s.paramWrite a v = t := Host.Outcome.next.inj h
    rw [exec_setp, exec_setp, State.paramWrite_paramWrite]
  case writeBack =>
    intro s a h
    rw [exec_setp, State.paramWrite_paramRead h]

end Sys2Proof.Machine
end

section
/-! SUPPORT. The control path between two `BLK` (20_memory.md R57 b, R58): a simulation between a run and the run on its `TICK`s
alone, in which every other event stutters. -/

namespace Sys2Proof.Machine

/-- The states agree in all that a `TICK` reads or writes: they differ at most in the pending registers, the note latch, the
responses sent and the events to come. -/
def State.SameRender (s t : State) : Prop :=
  ∃ pend latch rsp input, s = { t with pend := pend, latch := latch, rsp := rsp, input := input }

section
variable {s t u : State}

theorem State.SameRender.cfg (h : s.SameRender t) : s.cfg = t.cfg := by
  obtain ⟨_, _, _, _, rfl⟩ := h
  rfl

theorem State.SameRender.trans (h : s.SameRender t) (h' : t.SameRender u) : s.SameRender u := by
  obtain ⟨_, _, _, _, rfl⟩ := h
  obtain ⟨_, _, _, _, rfl⟩ := h'
  exact ⟨_, _, _, _, rfl⟩

theorem State.sameRender_withInput (s : State) (es : List Event) : ({ s with input := es } : State).SameRender s :=
  ⟨_, _, _, _, rfl⟩

/-- A store reaches the pending registers alone (R50). -/
theorem State.sameRender_paramWrite (s : State) (a : Byte) (v : Word) : (s.paramWrite a v).SameRender s := by
  rcases h : Param.ofAddr a with _ | p
  · exact ⟨_, _, _, _, State.paramWrite_of_none s v h⟩
  · exact ⟨_, _, _, _, State.paramWrite_of_some s v h⟩

/-- The commands of the control path leave the render path alone (R57 b). -/
theorem exec_control_sameRender {i : Instr} (hblk : i ≠ .blk) (htick : i ≠ .tick) (h : exec i s = .next t) :
    t.SameRender s := by
  cases i with
  | nop =>
    obtain rfl : s = t := Host.Outcome.next.inj h
    exact ⟨_, _, _, _, rfl⟩
  | setp a v =>
    obtain rfl : s.paramWrite a v = t := Host.Outcome.next.inj h
    exact s.sameRender_paramWrite a v
  | getp a =>
    obtain rfl : s.respond (s.paramRead a) = t := Host.Outcome.next.inj h
    exact ⟨_, _, _, _, rfl⟩
  | note a gate v =>
    obtain rfl : { s with latch := s.latch.record a gate v } = t := Host.Outcome.next.inj h
    exact ⟨_, _, _, _, rfl⟩
  | blk => exact absurd rfl hblk
  | tick => exact absurd rfl htick

/-- Ticks with the same pair of samples keep the agreement: a `TICK` reads and writes the render path alone (40_commands.md
R92). -/
theorem State.SameRender.tick (h : s.SameRender t) (es fs : List Event) (a b : Word) :
    ∃ s' t', exec .tick { s with input := es, whiteIn := a, pinkIn := b } = .next s' ∧
      exec .tick { t with input := fs, whiteIn := a, pinkIn := b } = .next t' ∧ s'.SameRender t' := by
  obtain ⟨_, _, _, _, rfl⟩ := h
  exact ⟨_, _, rfl, rfl, _, _, _, _, rfl⟩

/-- An event that is no `rst`, no `BLK` and no `TICK`, a word with a reserved opcode among them, leaves the render path alone. -/
theorem runOn_control_event (hc : s.cfg.wf = true) {e : Event} (hrst : e ≠ .rst) (hblk : e.isBlk = false)
    (htick : e.isTick = false) (es : List Event) :
    ∃ t : State, s.runOn (e :: es) = t.runOn es ∧ t.SameRender s := by
  rcases e with ⟨w, a, b⟩ | _
  · rcases hd : decode w with i | op
    · simp only [Event.isBlk, Event.isTick, hd, decide_eq_false_iff_not, Decoded.command.injEq] at hblk htick
      obtain ⟨t, ht⟩ := exec_completes i { s with input := es }
      have hr := exec_control_sameRender hblk htick ht
      exact ⟨t, runOn_command hc hd htick ht, hr.trans (s.sameRender_withInput es)⟩
    · exact ⟨{ s with input := es }, runOn_reserved hc hd, s.sameRender_withInput es⟩
  · exact absurd rfl hrst

/-- A `TICK` at the head of two runs keeps their agreement. -/
theorem State.SameRender.runOn_tick_event (h : s.SameRender t) (hc : t.cfg.wf = true) {e : Event}
    (htick : e.isTick = true) (es fs : List Event) :
    ∃ s' t' : State, s.runOn (e :: es) = s'.runOn es ∧ t.runOn (e :: fs) = t'.runOn fs ∧ s'.SameRender t' ∧
      t'.cfg = t.cfg := by
  rcases e with ⟨w, a, b⟩ | _
  · have hd : decode w = .command .tick := of_decide_eq_true htick
    obtain ⟨s', t', hs, ht, hr⟩ := h.tick es fs a b
    exact ⟨s', t', runOn_tick (h.cfg ▸ hc) hd hs, runOn_tick hc hd ht, hr, (exec_ports ht).1⟩
  · exact absurd htick Bool.false_ne_true

/-- States that agree on the render path end alike, the one after all the events, the other after their `TICK`s alone. -/
theorem State.SameRender.runOn_ticks {es : List Event} (h : s.SameRender t) (hc : t.cfg.wf = true)
    (hes : ∀ e ∈ es, e ≠ .rst ∧ e.isBlk = false) :
    ∃ s' t', s.runOn es = .next s' ∧ t.runOn (es.filter Event.isTick) = .next t' ∧
      s' = { t' with pend := s'.pend, latch := s'.latch, rsp := s'.rsp } := by
  induction es generalizing s t with
  | nil =>
    obtain ⟨_, _, _, _, rfl⟩ := h
    exact ⟨_, _, runOn_nil _, runOn_nil _, rfl⟩
  | cons e es ih =>
    obtain ⟨⟨hrst, hblk⟩, hes⟩ := List.forall_mem_cons.1 hes
    rcases htick : e.isTick with _ | _
    · obtain ⟨s₁, hs, hr⟩ := runOn_control_event (h.cfg ▸ hc) hrst hblk htick es
      rw [List.filter_cons_of_neg (by simp [htick]), hs]
      exact ih (hr.trans h) hc hes
    · obtain ⟨s₁, t₁, hs, ht, hr, hcfg⟩ := h.runOn_tick_event hc htick es (es.filter Event.isTick)
      rw [List.filter_cons_of_pos htick, hs, ht]
      exact ih hr (hcfg ▸ hc) hes

end

/-- Settles O28: the simulation, from one state. -/
theorem controlTrafficWithinABlockIsInaudible : Obligations.ControlTrafficWithinABlockIsInaudible := by
  unfold Obligations.ControlTrafficWithinABlockIsInaudible
  intro s es hc hes
  exact (s.sameRender_withInput s.input).runOn_ticks hc hes

end Sys2Proof.Machine
end

section
/-! SUPPORT. The decoder case by case (30_encoding.md R66, R69), and its round trips with the encoder (R65, R67). -/

namespace Sys2Proof.Machine

section
variable {w : CmdWord}

theorem decode_of_opField_nop (h : opField w = 0x00) : decode w = .command .nop := by
  simp [decode, h]

theorem decode_of_opField_setp (h : opField w = 0x01) : decode w = .command (.setp (aField w) (vField w)) := by
  simp [decode, h]

theorem decode_of_opField_getp (h : opField w = 0x02) : decode w = .command (.getp (aField w)) := by
  simp [decode, h]

theorem decode_of_opField_note (h : opField w = 0x03) :
    decode w = .command (.note (aField w) ((bField w).getLsbD 0) (vField w)) := by
  simp [decode, h]

theorem decode_of_opField_blk (h : opField w = 0x04) : decode w = .command .blk := by
  simp [decode, h]

theorem decode_of_opField_tick (h : opField w = 0x05) : decode w = .command .tick := by
  simp [decode, h]

/-- From 6 on an opcode is none of the six (R69, R70 a). -/
theorem decode_of_opField_reserved (h : 6 ≤ (opField w).toNat) : decode w = .reservedOpcode (opField w) := by
  have hne (op : Byte) (hop : op.toNat < 6) : opField w ≠ op := by
    rintro rfl
    omega
  simp [decode, hne]

end

/-- Everything the decoder can answer, with the opcode on which it answers it (R66, R69). -/
theorem decode_cases (w : CmdWord) :
    (opField w = 0x00 ∧ decode w = .command .nop) ∨
    (opField w = 0x01 ∧ decode w = .command (.setp (aField w) (vField w))) ∨
    (opField w = 0x02 ∧ decode w = .command (.getp (aField w))) ∨
    (opField w = 0x03 ∧ decode w = .command (.note (aField w) ((bField w).getLsbD 0) (vField w))) ∨
    (opField w = 0x04 ∧ decode w = .command .blk) ∨
    (opField w = 0x05 ∧ decode w = .command .tick) ∨
    (6 ≤ (opField w).toNat ∧ decode w = .reservedOpcode (opField w)) := by
  have hop : opField w = 0x00 ∨ opField w = 0x01 ∨ opField w = 0x02 ∨ opField w = 0x03 ∨ opField w = 0x04 ∨
      opField w = 0x05 ∨ 6 ≤ (opField w).toNat := by
    bv_omega
  exact hop.imp (fun h => ⟨h, decode_of_opField_nop h⟩) <|
    .imp (fun h => ⟨h, decode_of_opField_setp h⟩) <|
    .imp (fun h => ⟨h, decode_of_opField_getp h⟩) <|
    .imp (fun h => ⟨h, decode_of_opField_note h⟩) <|
    .imp (fun h => ⟨h, decode_of_opField_blk h⟩) <|
    .imp (fun h => ⟨h, decode_of_opField_tick h⟩) fun h => ⟨h, decode_of_opField_reserved h⟩

/-- A word is assembled from what its fields are known to hold (R65). -/
theorem cmdWord_eq_of_fields {w : CmdWord} {op a : Byte} {b : BitVec 16} {v : Word} (hop : opField w = op)
    (ha : aField w = a) (hb : bField w = b) (hv : vField w = v) : cmdWord op a b v = w := by
  rw [← hop, ← ha, ← hb, ← hv, cmdWord_fields]

/-- A field `b` with `b[15:1]` zero is the gate field of its bit 0 (R67). -/
theorem gateField_getLsbD_zero {b : BitVec 16} (h : b.toNat ≤ 1) : gateField (b.getLsbD 0) = b := by
  obtain rfl | rfl : b = 0 ∨ b = 1 := by bv_omega
  · rfl
  · rfl

/-- Settles O14: the opcode alone picks the case of the decoder, which reads the fields it names back. -/
theorem unusedFieldsAreIgnored : Obligations.UnusedFieldsAreIgnored := by
  unfold Obligations.UnusedFieldsAreIgnored
  intro a b v
  refine ⟨decode_of_opField_nop (opField_cmdWord ..), ?setp, ?getp, ?note,
    decode_of_opField_blk (opField_cmdWord ..), decode_of_opField_tick (opField_cmdWord ..)⟩
  case setp => rw [decode_of_opField_setp (opField_cmdWord ..), aField_cmdWord, vField_cmdWord]
  case getp => rw [decode_of_opField_getp (opField_cmdWord ..), aField_cmdWord]
  case note => rw [decode_of_opField_note (opField_cmdWord ..), aField_cmdWord, bField_cmdWord, vField_cmdWord]

/-- Settles O12: the encoder's word is one content of the unused fields among all those O14 speaks of. -/
theorem decodeOfEncodeIsTheCommand : Obligations.DecodeOfEncodeIsTheCommand := by
  unfold Obligations.DecodeOfEncodeIsTheCommand
  intro i
  cases i with
  | nop =>
    obtain ⟨h, -⟩ := unusedFieldsAreIgnored 0 0 0
    exact h
  | setp a v =>
    obtain ⟨-, h, -⟩ := unusedFieldsAreIgnored a 0 v
    exact h
  | getp a =>
    obtain ⟨-, -, h, -⟩ := unusedFieldsAreIgnored a 0 0
    exact h
  | note a gate v =>
    obtain ⟨-, -, -, h, -⟩ := unusedFieldsAreIgnored a (gateField gate) v
    simpa [encode, opcode] using h
  | blk =>
    obtain ⟨-, -, -, -, h, -⟩ := unusedFieldsAreIgnored 0 0 0
    exact h
  | tick =>
    obtain ⟨-, -, -, -, -, h⟩ := unusedFieldsAreIgnored 0 0 0
    exact h

/-- Settles O13: the seven answers of the decoder exclude one another, and so do their opcodes. -/
theorem opcodeAloneSelectsTheCommand : Obligations.OpcodeAloneSelectsTheCommand := by
  unfold Obligations.OpcodeAloneSelectsTheCommand
  intro w
  obtain ⟨hop, hd⟩ | ⟨hop, hd⟩ | ⟨hop, hd⟩ | ⟨hop, hd⟩ | ⟨hop, hd⟩ | ⟨hop, hd⟩ | ⟨hop, hd⟩ := decode_cases w
  · simp [hd, hop]
  · simp [hd, hop]
  · simp [hd, hop]
  · simp [hd, hop]
  · simp [hd, hop]
  · simp [hd, hop]
  · simp [hd, hop]
    omega

/-- Settles O15: the word is the encoder's by its fields, and the encoder's word decodes by O12. -/
theorem encodeOfDecodeIsTheCanonicalWord : Obligations.EncodeOfDecodeIsTheCanonicalWord := by
  unfold Obligations.EncodeOfDecodeIsTheCanonicalWord
  intro w h
  suffices henc : ∃ i, encode i = w by
    obtain ⟨i, rfl⟩ := henc
    exact ⟨i, decodeOfEncodeIsTheCommand i, rfl⟩
  obtain ⟨hop | hop | hop, ha, hb, hv⟩ | ⟨hop, hb⟩ | ⟨hop, hb, hv⟩ | ⟨hop, hb⟩ := h
  · exact ⟨.nop, cmdWord_eq_of_fields (BitVec.eq_of_toNat_eq hop) ha hb hv⟩
  · exact ⟨.blk, cmdWord_eq_of_fields (BitVec.eq_of_toNat_eq hop) ha hb hv⟩
  · exact ⟨.tick, cmdWord_eq_of_fields (BitVec.eq_of_toNat_eq hop) ha hb hv⟩
  · exact ⟨.setp (aField w) (vField w), cmdWord_eq_of_fields (BitVec.eq_of_toNat_eq hop) rfl hb rfl⟩
  · exact ⟨.getp (aField w), cmdWord_eq_of_fields (BitVec.eq_of_toNat_eq hop) rfl hb hv⟩
  · exact ⟨.note (aField w) ((bField w).getLsbD 0) (vField w),
      cmdWord_eq_of_fields (BitVec.eq_of_toNat_eq hop) rfl (gateField_getLsbD_zero hb).symm rfl⟩

/-- Settles O6: the step on a word the decoder rejects. -/
theorem reservedOpcodeHasNoEffect : Obligations.ReservedOpcodeHasNoEffect := by
  unfold Obligations.ReservedOpcodeHasNoEffect
  intro s w white pink rest hc hi hop
  exact step_reserved hc hi (decode_of_opField_reserved hop)

/-- Settles O16: each of the eight words by evaluation. -/
theorem workedEncodingsDecode : Obligations.WorkedEncodingsDecode := by
  unfold Obligations.WorkedEncodingsDecode
  decide

end Sys2Proof.Machine
end

section
/-! SUPPORT. The commands of the control path, one by one (40_commands.md R85 to R88): what `SETP` stores, what `GETP` sends,
what `NOTE` latches. -/

namespace Sys2Proof.Machine

/-- A register holding a value in its range is left as it is by a `SETP` of that value: the clamp lets it through (R86). -/
theorem Params.set_setpValue_get (f : Params) {p : Param} (hlo : p.lo ≤ s32 (f.get p)) (hhi : s32 (f.get p) ≤ p.hi) :
    f.set p (u32 (setpValue p (f.get p))) = f := by
  rw [setpValue, Param.clampP, clamp_of_mem hlo hhi, u32_s32, Params.set_get_self]

/-- `SETP` to an address that holds a register (R86). -/
theorem exec_setp_of_some (s : State) {a : Byte} {p : Param} (v : Word) (h : Param.ofAddr a = some p) :
    exec (.setp a v) s = .next { s with pend := s.pend.set p (u32 (setpValue p v)) } := by
  rw [exec_setp, State.paramWrite_of_some s v h]

/-- The register written by a `SETP` holds the clamped value (R86, 30_encoding.md R68). -/
theorem Params.s32_get_set_setpValue (f : Params) (p : Param) (v : Word) :
    s32 ((f.set p (u32 (setpValue p v))).get p) = max p.lo (min p.hi (s32 v)) := by
  rw [Params.get_set_self, setpValue, Param.s32_u32_clampP, Param.clampP_eq_max_min]

/-- The value a `SETP` leaves in its register, where the clamp of that value is known. -/
theorem exec_setp_value (s : State) {a : Byte} {p : Param} {v : Word} {x : Int} (h : Param.ofAddr a = some p)
    (hx : max p.lo (min p.hi (s32 v)) = x) : ∃ t, exec (.setp a v) s = .next t ∧ s32 (t.pend.get p) = x :=
  ⟨_, exec_setp_of_some s v h, (s.pend.s32_get_set_setpValue p v).trans hx⟩

/-- Settles O17: the opcode alone makes the word a `NOP`. -/
theorem nopLeavesEveryStateUnchanged : Obligations.NopLeavesEveryStateUnchanged := by
  unfold Obligations.NopLeavesEveryStateUnchanged
  exact ⟨exec_nop, fun w hop => decode_of_opField_nop (BitVec.eq_of_toNat_eq hop)⟩

/-- Settles O19: the clamped store at an address that holds a register, and none elsewhere. -/
theorem setpStoresTheClampedValue : Obligations.SetpStoresTheClampedValue := by
  unfold Obligations.SetpStoresTheClampedValue
  intro s a v
  refine ⟨?stored, ?unimplemented, ?equalValue, ?handOver, exec_setp_value s (p := .sharp1) rfl (by decide),
    exec_setp_value s (p := .interval2) rfl (by decide), exec_setp_value s (p := .range3) rfl (by decide),
    exec_setp_value s (p := .type1) rfl (by decide), exec_setp_value s (p := .selectorAdsrvibrato) rfl (by decide)⟩
  case stored =>
    intro ha
    obtain ⟨p, hp⟩ := Param.ofAddr_isSome ha
    exact ⟨p, _, hp, exec_setp_of_some s v hp, rfl, s.pend.s32_get_set_setpValue p v,
      fun q hq => s.pend.get_set_of_ne _ hq⟩
  case unimplemented =>
    intro ha
    rw [exec_setp, State.paramWrite_of_none s v (Param.ofAddr_eq_none ha)]
  case equalValue =>
    rintro p hp rfl hlo hhi
    rw [exec_setp_of_some s _ hp, s.pend.set_setpValue_get hlo hhi]
  case handOver =>
    intro t u _ hu
    obtain rfl : t.blockBoundary = u := Host.Outcome.next.inj hu
    exact t.blockBoundary_act

/-- `GETP` of an address that holds a register (R87). -/
theorem exec_getp_of_some (s : State) {a : Byte} {p : Param} (h : Param.ofAddr a = some p) :
    exec (.getp a) s = .next { s with rsp := s.rsp ++ [s.pend.get p] } := by
  rw [exec_getp, State.paramRead_of_some s h, State.respond]

/-- Settles O20: the read of the parameter space, on the port. -/
theorem getpAnswersThePendingRegister : Obligations.GetpAnswersThePendingRegister := by
  unfold Obligations.GetpAnswersThePendingRegister
  refine ⟨fun s a => ⟨fun p => exec_getp_of_some s, fun ha => ?unimplemented⟩, fun c => ?reset, ?afterSetp⟩
  case unimplemented => rw [exec_getp, State.paramRead_of_none s (Param.ofAddr_eq_none ha), State.respond]
  case reset =>
    have hrange2 : Params.reset.get .range2 = 1 := by decide
    rw [exec_getp_of_some _ (p := .range2) rfl, ← hrange2]
    rfl
  case afterSetp =>
    intro s t h
    obtain rfl : s.paramWrite 2 0x02000000 = t := Host.Outcome.next.inj h
    have hclamp : u32 (setpValue .mul1 0x02000000) = 0x01000000 := by decide
    rw [exec_getp, State.paramRead_paramWrite s (p := .mul1) _ rfl, hclamp, State.respond, State.paramWrite_rsp]

/-- The velocity word of a `NOTE` is its operand clamped to `0 .. ONE` (R88, 30_encoding.md R68). -/
theorem s32_u32_noteVel (v : Word) : s32 (u32 (noteVel v)) = max 0 (min ONE (s32 v)) := by
  rw [noteVel, s32_u32_of_unit (clamp_bounds _ (by norm_num)), clamp_eq_max_min (by norm_num)]

/-- The datapath does not read the note latch (R57 b). -/
theorem tickOut_withLatch (s : State) (l : NoteLatch) : tickOut { s with latch := l } = tickOut s := rfl

/-- Settles O22: the latch a `NOTE` records, field by field, and that no `TICK` reads it. -/
theorem noteWritesTheLatch : Obligations.NoteWritesTheLatch := by
  unfold Obligations.NoteWritesTheLatch
  refine ⟨fun s a gate v => ⟨_, exec_note a gate v s, rfl, rfl, s32_u32_noteVel v, rfl, ?noteOn, ?noteOff, rfl, _, _,
    exec_tick s, exec_tick _, ?inaudible⟩, fun c => ⟨_, exec_note 69 true _ _, ?exampleLatch⟩⟩
  case noteOn =>
    rintro rfl
    exact Bool.true_or s.latch.trig
  case noteOff =>
    rintro rfl
    exact Bool.false_or s.latch.trig
  case inaudible => simp [tickOut_withLatch]
  case exampleLatch =>
    show (State.resetWith c).latch.record 69 true 0x01000000 = _
    simp only [State.resetWith]
    decide

end Sys2Proof.Machine
end

section
/-! SUPPORT. The block boundary (40_commands.md R91, R93): what the gates of a pending note do to an envelope, and the states in
which a `BLK` has nothing left to do, which every `TICK` keeps. -/

namespace Sys2Proof.Machine

section
variable (e : Envelope) {l : NoteLatch}

/-- A note-on whose gate is still 1 (R91, 41_envelope.md R110). -/
theorem Envelope.takeGates_of_noteOn (ht : l.trig = true) (hg : l.gate = true) : e.takeGates l = e.enter .attack := by
  simp [Envelope.takeGates, ht, hg, Envelope.gateOn]

/-- A note-on followed by a note-off: `GateOn`, then `GateOff` out of the Attack it entered (R91). -/
theorem Envelope.takeGates_of_noteOn_noteOff (ht : l.trig = true) (hg : l.gate = false) :
    e.takeGates l = e.enter .release := by
  simp [Envelope.takeGates, ht, hg, Envelope.gateOn, Envelope.gateOff, Envelope.enter]

/-- A note-off alone (R91). -/
theorem Envelope.takeGates_of_noteOff (ht : l.trig = false) (hg : l.gate = false) : e.takeGates l = e.gateOff := by
  simp [Envelope.takeGates, ht, hg]

/-- No note-on and the gate still 1: neither gate transition (R91). -/
theorem Envelope.takeGates_of_held (ht : l.trig = false) (hg : l.gate = true) : e.takeGates l = e := by
  simp [Envelope.takeGates, ht, hg]

end

/-- `GateOff` from Attack, Decay or Sustain (41_envelope.md R111). -/
theorem Envelope.gateOff_of_held {e : Envelope} (hi : e.stage ≠ .idle) (hr : e.stage ≠ .release) :
    e.gateOff = e.enter .release := by
  rcases e.gateOff_cases with ⟨h, -⟩ | ⟨-, h⟩
  · exact absurd h (not_or_intro hi hr)
  · exact h

/-- `GateOff` leaves an envelope that is Idle or in Release as it is (R111). -/
theorem Envelope.gateOff_of_released {e : Envelope} (h : e.stage = .idle ∨ e.stage = .release) : e.gateOff = e := by
  rcases e.gateOff_cases with ⟨-, h'⟩ | ⟨h', -⟩
  · exact h'
  · rcases h with h | h <;> simp [h] at h'

/-- No note event is pending and the two register files are equal: nothing is left for a `BLK` to do. -/
def State.Settled (s : State) : Prop := s.latch.ev = false ∧ s.act = s.pend

theorem State.Settled.blockBoundary {s : State} (h : s.Settled) : s.blockBoundary = s := by
  obtain ⟨hev, hact⟩ := h
  exact (s.blockBoundary_of_not_ev hev).trans (congrArg (fun f => { s with act := f }) hact.symm)

/-- A block boundary does not look at what the host has yet to deliver. -/
theorem State.blockBoundary_withInput (s : State) (es : List Event) :
    ({ s with input := es } : State).blockBoundary = { s.blockBoundary with input := es } := by
  rcases hev : s.latch.ev with _ | _
  · rw [s.blockBoundary_of_not_ev hev]
    exact State.blockBoundary_of_not_ev _ hev
  · rw [s.blockBoundary_of_ev hev]
    exact State.blockBoundary_of_ev _ hev

theorem State.blockBoundary_settled (s : State) : s.blockBoundary.Settled := by
  refine ⟨?_, by simp⟩
  rcases hev : s.latch.ev with _ | _
  · simpa [s.blockBoundary_of_not_ev hev] using hev
  · simp [s.blockBoundary_of_ev hev, NoteLatch.cleared]

/-- Settles O24: the boundary with and without a pending event, and that it leaves a settled state. -/
theorem blkPublishesRegistersAndNote : Obligations.BlkPublishesRegistersAndNote := by
  unfold Obligations.BlkPublishesRegistersAndNote
  refine ⟨fun s => ⟨_, exec_blk s, s.blockBoundary_act, s.blockBoundary_of_not_ev, fun hev => ?takesNote⟩,
    fun s hev hact => ?settled, fun s t h => ?twice,
    fun c => ⟨_, _, _, exec_setp_of_some _ (p := .mul1) _ rfl, exec_note _ _ _ _, exec_blk _, ?exampleState⟩⟩
  case takesNote =>
    rw [s.blockBoundary_of_ev hev]
    refine ⟨rfl, rfl, rfl, fun e e' hee => ?_⟩
    have he : e' = e.takeGates s.latch := by
      rcases hee with h | h <;> obtain ⟨rfl, rfl⟩ := Prod.mk.inj h <;> rfl
    subst he
    exact ⟨e.takeGates_of_noteOn, e.takeGates_of_noteOn_noteOff,
      fun ht hg hi hr => (e.takeGates_of_noteOff ht hg).trans (Envelope.gateOff_of_held hi hr),
      fun ht hg h => (e.takeGates_of_noteOff ht hg).trans (Envelope.gateOff_of_released h), e.takeGates_of_held⟩
  case settled => rw [exec_blk, State.Settled.blockBoundary ⟨hev, hact⟩]
  case twice =>
    obtain rfl : s.blockBoundary = t := Host.Outcome.next.inj h
    rw [exec_blk, s.blockBoundary_settled.blockBoundary]
  case exampleState =>
    rw [State.blockBoundary_of_ev _ rfl]
    refine ⟨?_, ?_, rfl, rfl, rfl, rfl⟩
    · exact (Params.s32_get_set_setpValue _ .mul1 _).trans (by decide)
    · exact congrArg (fun v => ActiveNote.mk 69 v true (noteIncAt c.fs 69)) (by decide : u32 (noteVel 0x01000000) = _)

/-- The state after a `TICK` with the pair `x` on the sample ports (R92). -/
def State.ticked (s : State) (x : Word × Word) : State :=
  let s' := { s with whiteIn := x.1, pinkIn := x.2 }
  s'.tickState.emit (tickOut s') (tickOut s')

theorem State.Settled.ticked {s : State} (h : s.Settled) (x : Word × Word) : (s.ticked x).Settled := h

/-- A run delivers its own events, so it does not depend on those its first state holds. -/
theorem runOn_withInput (s : State) (es fs : List Event) : ({ s with input := es } : State).runOn fs = s.runOn fs := rfl

section
variable {s : State} (hc : s.cfg.wf = true)
include hc

/-- A run whose first event is a `TICK`. -/
theorem runOn_tick_cons (x : Word × Word) (es : List Event) : s.runOn (Event.tick x :: es) = (s.ticked x).runOn es :=
  runOn_tick (t := { s.ticked x with input := es }) hc (decodeOfEncodeIsTheCommand .tick) rfl

/-- A run whose first event is a `BLK`. -/
theorem runOn_blk_cons (es : List Event) : s.runOn (Event.blk :: es) = s.blockBoundary.runOn es := by
  rw [← runOn_withInput s.blockBoundary es, ← s.blockBoundary_withInput]
  exact runOn_command hc (decodeOfEncodeIsTheCommand .blk) (by simp) (exec_blk _)

end

/-- In a run of ticks from a settled state a `BLK` may be left out at any place (R93). -/
theorem State.Settled.runOn_drop_blk {s : State} (hc : s.cfg.wf = true) (h : s.Settled) (xs : List (Word × Word))
    (es : List Event) : s.runOn (xs.map Event.tick ++ Event.blk :: es) = s.runOn (xs.map Event.tick ++ es) := by
  induction xs generalizing s with
  | nil => rw [List.map_nil, List.nil_append, List.nil_append, runOn_blk_cons hc, h.blockBoundary]
  | cons x xs ih =>
    simp only [List.map_cons, List.cons_append, runOn_tick_cons hc]
    exact ih hc (h.ticked x)

/-- A run of ticks completes (20_memory.md R60). -/
theorem runOn_ticks_completes {s : State} (hc : s.cfg.wf = true) (xs : List (Word × Word)) :
    ∃ t, s.runOn (xs.map Event.tick) = .next t := by
  induction xs generalizing s with
  | nil => exact ⟨_, runOn_nil s⟩
  | cons x xs ih =>
    rw [List.map_cons, runOn_tick_cons hc]
    exact ih hc

/-- Settles O25: after the first `BLK` the state is settled, and there the second one may be left out. -/
theorem blockSizeDoesNotMatter : Obligations.BlockSizeDoesNotMatter := by
  unfold Obligations.BlockSizeDoesNotMatter
  intro s xs ys hc
  have hc' : s.blockBoundary.cfg.wf = true := by rwa [s.blockBoundary_cfg]
  obtain ⟨t, ht⟩ := runOn_ticks_completes hc' (xs ++ ys)
  refine ⟨t, (runOn_blk_cons hc _).trans ht, ?_⟩
  rw [List.cons_append, runOn_blk_cons hc, s.blockBoundary_settled.runOn_drop_blk hc', ← List.map_append, ht]

end Sys2Proof.Machine
end

section
/-! SUPPORT. The render path of an unprogrammed block (60_exceptions.md R208): idle envelopes, reset registers and a filter at 0
send 0, whatever the generators, the note and the noise inputs are. -/

namespace Sys2Proof.Machine

section
variable {s : State}

theorem egTick_of_idle (c : EgCfg) {e : Envelope} (h : e.stage = .idle) : egTick c e = { e with level := 0 } := by
  simp [egTick, h]

/-- An Idle envelope answers 0 (41_envelope.md R113, R118). -/
theorem egOut_of_idle (c : EgCfg) {e : Envelope} (h : e.stage = .idle) : egOut c e = 0 := by
  simp [egOut, egTick_of_idle c h]

/-- At the reset position of its selector the amplitude is the envelope's alone (42_lfo_modsel.md R136). -/
theorem tickAmp_of_idle (ha : s.ega.stage = .idle) (hact : s.act = Params.reset) : tickAmp s = 0 := by
  have hsel : s32 s.act.selectorAdsrtremolo = 0 := by rw [hact]; decide
  rw [tickAmp, tickEnvA, egOut_of_idle _ ha, ampSel, hsel, lerp_zero]

/-- Without amplitude the oscillator bank is silent (43_oscillator.md R173, R175). -/
theorem tickBank_of_silent (h : tickAmp s = 0) : tickBank s = 0 := by
  simp [tickBank, tickO1, tickO2, tickO3, h, oscAmp, oscAmp3, oscOut]

/-- With both gains at reset the noise is silent, whatever stands on the sample ports (44_filter_output.md R181). -/
theorem tickNoise_of_reset (hact : s.act = Params.reset) : tickNoise s = 0 := by
  have hw : s32 s.act.mulWhiteNoise = 0 := by rw [hact]; decide
  have hp : s32 s.act.mulPinkNoise = 0 := by rw [hact]; decide
  simp [tickNoise, noiseMux, hw, hp]

/-- A filter at 0 that is fed 0 stays at 0 (R195). -/
theorem ladder_zero (g k : Int) : ladder ⟨0, 0, 0, 0⟩ 0 g k = ⟨0, 0, 0, 0⟩ := by
  simp [ladder, ladderInput, ladderStages, poleStep]

/-- A tick of an unprogrammed block keeps its filter at 0 (R208). -/
theorem tickFilter_of_silent (ha : s.ega.stage = .idle) (hact : s.act = Params.reset)
    (hf : s.filter = ⟨0, 0, 0, 0⟩) : tickFilter s = ⟨0, 0, 0, 0⟩ := by
  have hx : tickX s = 0 := by rw [tickX, tickBank_of_silent (tickAmp_of_idle ha hact), tickNoise_of_reset hact, add_zero]
  rw [tickFilter, hx, hf, ladder_zero]

/-- A tick of an unprogrammed block sends 0 (R208, R197). -/
theorem tickOut_of_silent (ha : s.ega.stage = .idle) (hact : s.act = Params.reset)
    (hf : s.filter = ⟨0, 0, 0, 0⟩) : tickOut s = 0 := by
  simp [tickOut, tickFilter_of_silent ha hact hf, stereo]

end

/-- Settles O26: `TICK` is its ten steps by definition, and the reset state is an unprogrammed block. -/
theorem tickRunsTheTenSteps : Obligations.TickRunsTheTenSteps := by
  unfold Obligations.TickRunsTheTenSteps
  refine ⟨exec_tick, fun c => ⟨_, exec_tick _, ?_⟩⟩
  rw [State.emit_out, State.tickState_out, tickOut_of_silent rfl rfl rfl]
  rfl

end Sys2Proof.Machine
end

section
/-! SUPPORT. The tables and the constants (00_scope.md R7 to R9, 43_oscillator.md R150, R171), and the note increment, which is
computed from them (40_commands.md R90). -/

namespace Sys2Proof.Machine

/-- Rounding of a quotient of natural numbers (00_scope.md R13). -/
theorem rnd_natCast (num den : Nat) : rnd num den = ((2 * num + den) / (2 * den) : Nat) := by
  simp [rnd]

/-- The semitone ratios rise (43_oscillator.md R171). -/
theorem det30_lt_succ {d : Int} (h1 : -12 ≤ d) (h2 : d < 12) : det30 d < det30 (d + 1) := by
  have h : ∀ i : Fin 24, det30 ((i : Nat) - 12) < det30 ((i : Nat) - 12 + 1) := by decide
  have hd := h ⟨(d + 12).toNat, by omega⟩
  rwa [show (((d + 12).toNat : Nat) : Int) - 12 = d by omega] at hd

/-- The sine table rises (R150). -/
theorem sinT_lt_succ : ∀ i : Nat, i < 64 → sinT i < sinT (i + 1) := by
  have h : ∀ i : Fin 64, sinT i < sinT (i + 1) := by decide
  exact fun i hi => h ⟨i, hi⟩

/-- The seven note increments the rule gives at 48000 Hz (R90). -/
theorem noteIncAt_48000 : [0, 21, 57, 60, 69, 81, 127].map (fun n => (noteIncAt 48000 n).toNat) =
    [731558, 2460658, 19685267, 23409859, 39370534, 78741067, 1122405052] := by decide

/-- Settles O47: the tables by evaluation, and the constants by the law of `rnd`. -/
theorem tablesHaveTheirCheckValues : Obligations.TablesHaveTheirCheckValues := by
  unfold Obligations.TablesHaveTheirCheckValues
  refine ⟨noteIncAt_48000, by decide, fun d => det30_lt_succ, by decide, by decide, by decide, by decide, by decide,
    sinT_lt_succ, fun c => ⟨rfl, rfl⟩, by decide, by decide, ?durations, by decide⟩
  intro num den fs _
  have h := rnd_natCast (num * fs) den
  push_cast at h
  rw [samplesOfSeconds, h]
  norm_cast

/-- The ratios of the twelve semitones are at most 2, those up to the tenth at most the tenth's (R171). -/
theorem det30_semitone {k : Int} (h0 : 0 ≤ k) (h1 : k < 12) :
    0 ≤ det30 k ∧ det30 k ≤ 2147483648 ∧ (k ≤ 10 → det30 k ≤ 1913190429) := by
  have h : ∀ i : Fin 12, 0 ≤ det30 (i : Nat) ∧ det30 (i : Nat) ≤ 2147483648 ∧
      (((i : Nat) : Int) ≤ 10 → det30 (i : Nat) ≤ 1913190429) := by decide
  have hi := h ⟨k.toNat, by omega⟩
  rwa [show ((k.toNat : Nat) : Int) = k by omega] at hi

/-- A quotient that is rounded to less than `2^32`; the bound on `num` is that of the highest note. -/
theorem rnd_mem_word {num den : Int} (h0 : 0 ≤ num) (h1 : num ≤ 440 * (1913190429 * 64)) (hden : 12544 ≤ den) :
    0 ≤ rnd num den ∧ rnd num den < 4294967296 :=
  ⟨Int.ediv_nonneg (by omega) (by omega), Int.ediv_lt_of_lt_mul (by omega) (by omega)⟩

section
variable {fs n : Nat} {o k : Int} (hn : (n : Int) - 69 = 12 * o + k) (hk : 0 ≤ k) (hk' : k < 12)
include hn hk hk'

/-- The increment of a note in octave `o` from -2 up (R90). -/
theorem noteIncAt_of_high (ho : 0 ≤ o + 2) : noteIncAt fs n = u32 (rnd (440 * det30 k * 2 ^ (o + 2).toNat) fs) := by
  have hdiv : ((n : Int) - 69) / 12 = o := by omega
  have hmod : (n : Int) - 69 - 12 * o = k := by omega
  simp [noteIncAt, hdiv, hmod, ho]

/-- The increment of a note below octave -2 (R90). -/
theorem noteIncAt_of_low (ho : o + 2 < 0) :
    noteIncAt fs n = u32 (rnd (440 * det30 k) (fs * 2 ^ (-(o + 2)).toNat)) := by
  have hdiv : ((n : Int) - 69) / 12 = o := by omega
  have hmod : (n : Int) - 69 - 12 * o = k := by omega
  simp only [noteIncAt, hdiv, hmod, if_neg (not_le.2 ho)]
  push_cast
  rfl

/-- Note 127, with `o = 4` and `k = 10`, has the largest numerator of all (R90). -/
theorem det30_mul_pow_le (hn127 : n ≤ 127) : det30 k * 2 ^ (o + 2).toNat ≤ 1913190429 * 64 := by
  obtain ⟨-, hmax, htop⟩ := det30_semitone hk hk'
  rcases (show o = 4 ∨ o ≤ 3 by omega) with rfl | ho
  · exact Int.mul_le_mul_of_nonneg_right (htop (by omega)) (by norm_num)
  · calc det30 k * 2 ^ (o + 2).toNat ≤ 2147483648 * 2 ^ 5 := by gcongr <;> omega
      _ ≤ 1913190429 * 64 := by norm_num

/-- The rounded quotient of a note, and that it needs no reduction modulo `2^32` from 12544 Hz on (R90). -/
theorem exists_noteIncAt_eq (hn127 : n ≤ 127) : ∃ q : Int,
    (0 ≤ o + 2 → q = rnd (440 * det30 k * 2 ^ (o + 2).toNat) fs) ∧
    (o + 2 < 0 → q = rnd (440 * det30 k) (fs * 2 ^ (-(o + 2)).toNat)) ∧
    noteIncAt fs n = u32 q ∧ (12544 ≤ fs → 0 ≤ q ∧ q < 4294967296) := by
  obtain ⟨h0, hmax, -⟩ := det30_semitone hk hk'
  rcases lt_or_ge (o + 2) 0 with ho | ho
  · refine ⟨_, fun h => absurd h ho.not_ge, fun _ => rfl, noteIncAt_of_low hn hk hk' ho, fun hfs => ?_⟩
    have hden : (fs : Int) ≤ fs * 2 ^ (-(o + 2)).toNat :=
      le_mul_of_one_le_right (by omega) (one_le_pow₀ (by norm_num))
    exact rnd_mem_word (by omega) (by omega) (by omega)
  · refine ⟨_, fun _ => rfl, fun h => absurd h ho.not_gt, noteIncAt_of_high hn hk hk' ho, fun hfs => ?_⟩
    have hle := det30_mul_pow_le hn hk hk' hn127
    exact rnd_mem_word (by positivity) (by rw [mul_assoc]; omega) (by omega)

end

/-- Settles O57: the quotient of either branch, narrowed to a word. -/
theorem noteIncrementFollowsItsLaw : Obligations.NoteIncrementFollowsItsLaw := by
  unfold Obligations.NoteIncrementFollowsItsLaw
  refine ⟨fun fs n o k _ hn127 hn hk hk' => ⟨⟨by omega, by omega⟩, ?_⟩, noteIncAt_48000, fun c pitch => rfl⟩
  obtain ⟨q, hhigh, hlow, hinc, hword⟩ := exists_noteIncAt_eq (fs := fs) hn hk hk' hn127
  have hmod : ((noteIncAt fs n).toNat : Int) = q % 4294967296 := by rw [hinc, toNat_u32]
  refine ⟨q, hhigh, hlow, hmod, fun hfs => ?_⟩
  obtain ⟨h0, h1⟩ := hword hfs
  rw [hmod, Int.emod_eq_of_lt h0 h1]

end Sys2Proof.Machine
end

section
/-! SUPPORT. The stages of an envelope that move (41_envelope.md R112): the laws of the rising and the falling line, and one
account of Attack, Decay and Release (R114, R115, R117), each a line, a duration and the envelope the last tick leaves. -/

namespace Sys2Proof.Machine

-- The lines

@[simp] theorem rising_zero (a t : Int) (n : Nat) : rising a t 0 n = a := by
  simp [rising]

@[simp] theorem falling_zero (a t : Int) (n : Nat) : falling a t 0 n = a := by
  simp [falling]

/-- The falling line is the rising one between the same two levels, turned over (R112). -/
theorem falling_eq_sub_rising (a t : Int) (k n : Nat) : falling a t k n = a + t - rising t a k n := by
  unfold falling rising
  omega

/-- After its duration the rising line is at its target. -/
theorem rising_duration (a t : Int) {n : Nat} (hn : 0 < n) : rising a t n n = t := by
  rw [rising, Int.mul_ediv_cancel _ (by omega)]
  omega

theorem falling_duration (a t : Int) {n : Nat} (hn : 0 < n) : falling a t n n = t := by
  rw [falling_eq_sub_rising, rising_duration t a hn]
  omega

/-- One sample moves the rising line up, by at most the ceiling of `ONE / n`: that many samples' worth of `n` cover the
way to the target (R120). -/
theorem rising_succ_mem {a t : Int} (k : Nat) {n : Nat} (hn : 0 < n) (hat : a ≤ t) (hd : t - a ≤ ONE) :
    rising a t k n ≤ rising a t (k + 1) n ∧ rising a t (k + 1) n ≤ rising a t k n + (ONE + n - 1) / n := by
  have hn' : (0 : Int) < n := by exact_mod_cast hn
  have hceil : ONE ≤ (ONE + n - 1) / n * n := by
    have := Int.lt_ediv_add_one_mul_self (ONE + n - 1) hn'
    rw [Int.add_mul] at this
    omega
  have hsucc : (t - a) * ((k + 1 : Nat) : Int) = (t - a) * k + (t - a) := by push_cast; ring
  have hup := Int.ediv_le_ediv hn' (show (t - a) * k ≤ (t - a) * k + (t - a) by omega)
  have hslope := Int.ediv_le_ediv hn' (show (t - a) * k + (t - a) ≤ (t - a) * k + (ONE + n - 1) / n * n by omega)
  rw [Int.add_mul_ediv_right _ _ hn'.ne'] at hslope
  unfold rising
  rw [hsucc]
  omega

theorem falling_succ_mem {a t : Int} (k : Nat) {n : Nat} (hn : 0 < n) (hat : t ≤ a) (hd : a - t ≤ ONE) :
    falling a t (k + 1) n ≤ falling a t k n ∧ falling a t k n ≤ falling a t (k + 1) n + (ONE + n - 1) / n := by
  have := rising_succ_mem k hn hat hd
  simp only [falling_eq_sub_rising]
  omega

-- The level on its line

section
variable {c : EgCfg} {e : Envelope}

theorem Envelope.onLine_of_attack (h : e.stage = .attack) :
    e.OnLine c ↔ s32 e.level = rising (s32 e.start) ONE e.elapsed.toNat c.na := by
  rw [Envelope.OnLine, h]

theorem Envelope.onLine_of_decay (h : e.stage = .decay) :
    e.OnLine c ↔ s32 e.level = falling (s32 e.start) c.sus e.elapsed.toNat c.nd := by
  rw [Envelope.OnLine, h]

theorem Envelope.onLine_of_release (h : e.stage = .release) :
    e.OnLine c ↔ s32 e.level = falling (s32 e.start) 0 e.elapsed.toNat c.nr := by
  rw [Envelope.OnLine, h]

/-- Idle and Sustain have no line (R113, R116). -/
theorem Envelope.onLine_of_held (h : e.stage = .idle ∨ e.stage = .sustain) : e.OnLine c := by
  rcases h with h | h <;> rw [Envelope.OnLine, h] <;> trivial

theorem egTick_of_sustain (c : EgCfg) {e : Envelope} (h : e.stage = .sustain) :
    egTick c e = { e with level := u32 c.sus } := by
  simpa [h] using egTick_cases c e

end

/-- A stage `st` that moves along `line` for `n` samples and then becomes `next`: what its ticks do, what `OnLine` says in it,
and what the invariant of an envelope gives of its line. -/
structure MovesAlong (c : EgCfg) (st : Stage) (line : Int → Nat → Int) (n : Nat) (next : Envelope) : Prop where
  duration_lt : n < 2 ^ 32
  tick_last : ∀ {e : Envelope}, e.stage = st → n ≤ e.elapsed.toNat + 1 → egTick c e = next
  tick_inside : ∀ {e : Envelope}, e.stage = st → e.elapsed.toNat + 1 < n →
    egTick c e =
      { e with
        elapsed := BitVec.ofNat 32 (e.elapsed.toNat + 1)
        level := u32 (line (s32 e.start) (e.elapsed.toNat + 1)) }
  onLine_iff : ∀ {e : Envelope}, e.stage = st → (e.OnLine c ↔ s32 e.level = line (s32 e.start) e.elapsed.toNat)
  next_onLine : next.OnLine c
  elapsed_lt : ∀ {e : Envelope}, e.Inv c → e.stage = st → e.elapsed.toNat < n
  line_mem : ∀ {e : Envelope}, e.Inv c → e.stage = st → ∀ k ≤ n, 0 ≤ line (s32 e.start) k ∧ line (s32 e.start) k ≤ ONE
  line_end : ∀ {e : Envelope}, e.Inv c → e.stage = st → line (s32 e.start) n = s32 next.level

section
variable {c : EgCfg} (hc : c.wf = true)
include hc

/-- Attack (R114). -/
theorem attack_movesAlong :
    MovesAlong c .attack (fun a k => rising a ONE k c.na) c.na (Envelope.arrive .decay ONE) := by
  obtain ⟨⟨hna, hlt⟩, -⟩ := (EgCfg.wf_iff c).1 hc
  exact {
    duration_lt := hlt
    tick_last := fun {e} hs hn => by simpa [hs, hn, hn.not_gt] using egTick_cases c e
    tick_inside := fun {e} hs hn => by simpa [hs, hn, hn.not_ge] using egTick_cases c e
    onLine_iff := Envelope.onLine_of_attack
    next_onLine := (Envelope.onLine_of_decay rfl).2 (falling_zero _ _ _).symm
    elapsed_lt := fun ⟨_, _, hstage⟩ hs => (Envelope.stageInv_of_attack hs).1 hstage
    line_mem := fun ⟨_, hstart, _⟩ _ k hk =>
      have hline := rising_mem hstart.2 hk hna
      ⟨hstart.1.trans hline.1, hline.2⟩
    line_end := fun _ _ => (rising_duration _ _ hna).trans (by decide) }

/-- Decay (R115). -/
theorem decay_movesAlong :
    MovesAlong c .decay (fun a k => falling a c.sus k c.nd) c.nd (Envelope.arrive .sustain c.sus) := by
  obtain ⟨-, ⟨hnd, hlt⟩, -, hsus, -⟩ := (EgCfg.wf_iff c).1 hc
  exact {
    duration_lt := hlt
    tick_last := fun {e} hs hn => by simpa [hs, hn, hn.not_gt] using egTick_cases c e
    tick_inside := fun {e} hs hn => by simpa [hs, hn, hn.not_ge] using egTick_cases c e
    onLine_iff := Envelope.onLine_of_decay
    next_onLine := Envelope.onLine_of_held (.inr rfl)
    elapsed_lt := fun ⟨_, _, hstage⟩ hs => ((Envelope.stageInv_of_decay hs).1 hstage).1
    line_mem := fun ⟨_, hstart, hstage⟩ hs k hk =>
      have hone := ((Envelope.stageInv_of_decay hs).1 hstage).2
      have hline := falling_mem (hone ▸ hsus.2) hk hnd
      ⟨hsus.1.trans hline.1, hline.2.trans hstart.2⟩
    line_end := fun _ _ => (falling_duration _ _ hnd).trans (s32_u32_of_unit hsus).symm }

/-- Release (R117). -/
theorem release_movesAlong :
    MovesAlong c .release (fun a k => falling a 0 k c.nr) c.nr (Envelope.arrive .idle 0) := by
  obtain ⟨-, -, ⟨hnr, hlt⟩, -⟩ := (EgCfg.wf_iff c).1 hc
  exact {
    duration_lt := hlt
    tick_last := fun {e} hs hn => by simpa [hs, hn, hn.not_gt] using egTick_cases c e
    tick_inside := fun {e} hs hn => by simpa [hs, hn, hn.not_ge] using egTick_cases c e
    onLine_iff := Envelope.onLine_of_release
    next_onLine := Envelope.onLine_of_held (.inl rfl)
    elapsed_lt := fun ⟨_, _, hstage⟩ hs => (Envelope.stageInv_of_release hs).1 hstage
    line_mem := fun ⟨_, hstart, _⟩ _ k hk =>
      have hline := falling_mem hstart.1 hk hnr
      ⟨hline.1, hline.2.trans hstart.2⟩
    line_end := fun _ _ => (falling_duration _ _ hnr).trans (by decide) }

end

section
variable {c : EgCfg} {e : Envelope} {st : Stage} {line : Int → Nat → Int} {n : Nat} {next : Envelope}
  (m : MovesAlong c st line n next)
include m

/-- A tick inside a moving stage: `elapsed` counts up by one and the level goes to the line (R112). -/
theorem MovesAlong.exists_level (h : e.Inv c) (hs : e.stage = st) (hn : e.elapsed.toNat + 1 < n) :
    ∃ l : Word, egTick c e = { e with elapsed := e.elapsed + 1, level := l } ∧
      s32 l = line (s32 e.start) (e.elapsed.toNat + 1) := by
  refine ⟨_, ?_, s32_u32_of_unit (m.line_mem h hs _ hn.le)⟩
  rw [m.tick_inside hs hn, BitVec.ofNat_add, BitVec.ofNat_toNat, BitVec.setWidth_eq]
  rfl

/-- After a tick of a moving stage the level is on that stage's line one sample on, the last tick included. -/
theorem MovesAlong.level_egTick (h : e.Inv c) (hs : e.stage = st) :
    s32 (egTick c e).level = line (s32 e.start) (e.elapsed.toNat + 1) := by
  have hk := m.elapsed_lt h hs
  rcases lt_or_ge (e.elapsed.toNat + 1) n with hn | hn
  · obtain ⟨l, ht, hl⟩ := m.exists_level h hs hn
    rw [ht, hl]
  · rw [m.tick_last hs hn, ← m.line_end h hs, show e.elapsed.toNat + 1 = n by omega]

/-- A tick of a moving stage leaves the level on a line, wherever it was before. -/
theorem MovesAlong.egTick_onLine (h : e.Inv c) (hs : e.stage = st) : (egTick c e).OnLine c := by
  rcases lt_or_ge (e.elapsed.toNat + 1) n with hn | hn
  · obtain ⟨l, ht, hl⟩ := m.exists_level h hs hn
    have helapsed : (e.elapsed + 1).toNat = e.elapsed.toNat + 1 :=
      BitVec.toNat_add_of_lt (hn.trans m.duration_lt)
    rw [ht]
    refine Iff.mpr (m.onLine_iff hs) ?_
    rw [helapsed]
    exact hl
  · rw [m.tick_last hs hn]
    exact m.next_onLine

/-- From its entry a moving stage follows its line for exactly its duration (R112, R120). -/
theorem MovesAlong.iterate_egTick (a : Word) (hn : 0 < n) (h0 : line (s32 a) 0 = s32 a) :
    (∀ k, k < n → (egTick c)^[k] { stage := st, level := a, elapsed := 0, start := a } =
      { stage := st, level := u32 (line (s32 a) k), elapsed := BitVec.ofNat 32 k, start := a }) ∧
    (egTick c)^[n] { stage := st, level := a, elapsed := 0, start := a } = next := by
  have helapsed {k : Nat} (hk : k < n) : (BitVec.ofNat 32 k).toNat = k :=
    (BitVec.toNat_ofNat k 32).trans (Nat.mod_eq_of_lt (hk.trans m.duration_lt))
  have hline : ∀ k, k < n → (egTick c)^[k] { stage := st, level := a, elapsed := 0, start := a } =
      { stage := st, level := u32 (line (s32 a) k), elapsed := BitVec.ofNat 32 k, start := a } := by
    intro k hk
    induction k with
    | zero => rw [h0, u32_s32]; rfl
    | succ k ih =>
      have hk' := Nat.lt_of_succ_lt hk
      rw [Function.iterate_succ_apply', ih hk', m.tick_inside rfl (by rwa [helapsed hk']), helapsed hk']
  refine ⟨hline, ?_⟩
  obtain ⟨k, rfl⟩ := Nat.exists_eq_succ_of_ne_zero hn.ne'
  rw [Function.iterate_succ_apply', hline k (Nat.lt_succ_self k),
    m.tick_last rfl (by rw [helapsed (Nat.lt_succ_self k)])]

end

end Sys2Proof.Machine
end

section
/-! SUPPORT. The stage law through gates, ticks, commands and steps (41_envelope.md R112). -/

namespace Sys2Proof.Machine

section
variable {c : EgCfg} {e : Envelope}

/-- The gates put an envelope at the start of a new line or leave it on its own (R110, R111). -/
theorem Envelope.OnLine.takeGates (h : e.OnLine c) (l : NoteLatch) : (e.takeGates l).OnLine c := by
  have hattack : (e.enter .attack).OnLine c := (onLine_of_attack rfl).2 (rising_zero _ _ _).symm
  have hrelease : (e.enter .release).OnLine c := (onLine_of_release rfl).2 (falling_zero _ _ _).symm
  rcases ht : l.trig with _ | _ <;> rcases hg : l.gate with _ | _
  · rw [e.takeGates_of_noteOff ht hg]
    rcases e.gateOff_cases with ⟨-, hoff⟩ | ⟨-, hoff⟩ <;> rw [hoff]
    · exact h
    · exact hrelease
  · rwa [e.takeGates_of_held ht hg]
  · rwa [e.takeGates_of_noteOn_noteOff ht hg]
  · rwa [e.takeGates_of_noteOn ht hg]

/-- A tick leaves an envelope on the line of the stage it is then in, even if it was on none (R113 to R117). -/
theorem Envelope.Inv.egTick_onLine (hc : c.wf = true) (h : e.Inv c) : (egTick c e).OnLine c := by
  rcases hs : e.stage
  case attack => exact (attack_movesAlong hc).egTick_onLine h hs
  case decay => exact (decay_movesAlong hc).egTick_onLine h hs
  case release => exact (release_movesAlong hc).egTick_onLine h hs
  case idle =>
    rw [egTick_of_idle c hs]
    exact onLine_of_held (.inl hs)
  case sustain =>
    rw [egTick_of_sustain c hs]
    exact onLine_of_held (.inr hs)

end

section
variable {s t : State}

theorem State.OnLines.blockBoundary (h : s.OnLines) : s.blockBoundary.OnLines := by
  obtain ⟨ha, hf⟩ := h
  rcases hev : s.latch.ev with _ | _
  · rw [s.blockBoundary_of_not_ev hev]
    exact ⟨ha, hf⟩
  · rw [s.blockBoundary_of_ev hev]
    exact ⟨ha.takeGates s.latch, hf.takeGates s.latch⟩

theorem State.Inv.tickState_onLines (h : s.Inv) : s.tickState.OnLines :=
  ⟨h.ega.egTick_onLine h.egCfg.1, h.egf.egTick_onLine h.egCfg.2⟩

/-- The stage law is about the envelopes and their configuration alone. -/
theorem State.onLines_congr (hcfg : t.cfg = s.cfg) (ha : t.ega = s.ega) (hf : t.egf = s.egf) :
    t.OnLines ↔ s.OnLines := by
  rw [State.OnLines, State.OnLines, hcfg, ha, hf]

/-- Every command keeps both envelopes on their lines. -/
theorem State.OnLines.exec (h : s.OnLines) (hinv : s.Inv) {i : Instr} (he : exec i s = .next t) : t.OnLines := by
  cases i with
  | nop =>
    obtain rfl : s = t := Host.Outcome.next.inj he
    exact h
  | setp a v =>
    obtain rfl : s.paramWrite a v = t := Host.Outcome.next.inj he
    exact (State.onLines_congr (by simp) (by simp) (by simp)).2 h
  | getp a =>
    obtain rfl : s.respond (s.paramRead a) = t := Host.Outcome.next.inj he
    exact h
  | note a gate v =>
    obtain rfl : { s with latch := s.latch.record a gate v } = t := Host.Outcome.next.inj he
    exact h
  | blk =>
    obtain rfl : s.blockBoundary = t := Host.Outcome.next.inj he
    exact h.blockBoundary
  | tick =>
    obtain rfl : s.tickState.emit (tickOut s) (tickOut s) = t := Host.Outcome.next.inj he
    exact hinv.tickState_onLines

end

/-- Settles O4: whatever the event, by what the step can have done with it; after `rst` both envelopes are Idle. -/
theorem everyStepKeepsTheStageLaw : Obligations.EveryStepKeepsTheStageLaw := by
  unfold Obligations.EveryStepKeepsTheStageLaw
  intro s t hinv h hstep
  obtain ⟨-, ⟨-, rfl⟩ | ⟨rest, -, rfl⟩ | ⟨-, -, -, rest, -, -, -, rfl⟩ | ⟨-, a, b, rest, i, -, -, he⟩⟩ := step_cases hstep
  · exact h
  · exact ⟨trivial, trivial⟩
  · exact h
  · have htaken : (({ s with input := rest } : State).takeSamples i a b).OnLines :=
      (State.onLines_congr (by simp) (by simp) (by simp)).2 h
    exact htaken.exec ((hinv.withPorts rest _ _ _ _).takeSamples i a b) he

end Sys2Proof.Machine
end

section
/-! SUPPORT. The ticks of an envelope one by one, through a whole stage, and the output (41_envelope.md R113 to R118, R120). -/

namespace Sys2Proof.Machine

/-- Settles O32: the moving stages by the account of each, Idle and Sustain by their rules. -/
theorem envelopeTickFollowsItsStage : Obligations.EnvelopeTickFollowsItsStage := by
  unfold Obligations.EnvelopeTickFollowsItsStage
  intro c e hc h
  have attack := attack_movesAlong hc
  have decay := decay_movesAlong hc
  have release := release_movesAlong hc
  refine ⟨egTick_of_idle c, attack.tick_last, fun hs hn => ?attack, decay.tick_last, fun hs hn => ?decay,
    egTick_of_sustain c, release.tick_last, fun hs hn => ?release⟩
  case attack => exact_mod_cast attack.exists_level h hs hn
  case decay => exact_mod_cast decay.exists_level h hs hn
  case release =>
    have := release.exists_level h hs hn
    simp only [falling, sub_zero] at this
    exact_mod_cast this

/-- Settles O33: the moving stages from their entry by induction on the samples; a tick of Sustain or Idle has no effect. -/
theorem everyStageLastsItsDuration : Obligations.EveryStageLastsItsDuration := by
  unfold Obligations.EveryStageLastsItsDuration
  intro c a hc _
  obtain ⟨⟨hna, -⟩, ⟨hnd, -⟩, ⟨hnr, -⟩, -⟩ := (EgCfg.wf_iff c).1 hc
  obtain ⟨hattack, hattackEnd⟩ := (attack_movesAlong hc).iterate_egTick a hna (rising_zero _ _ _)
  obtain ⟨hdecay, hdecayEnd⟩ := (decay_movesAlong hc).iterate_egTick (u32 ONE) hnd (falling_zero _ _ _)
  obtain ⟨hrelease, hreleaseEnd⟩ := (release_movesAlong hc).iterate_egTick a hnr (falling_zero _ _ _)
  have hone : s32 (u32 ONE) = ONE := by decide
  simp only [hone] at hdecay
  simp only [falling, sub_zero] at hrelease
  exact ⟨hattack, hattackEnd, hdecay, hdecayEnd, Function.iterate_fixed (egTick_of_sustain c rfl), hrelease,
    hreleaseEnd, Function.iterate_fixed (egTick_of_idle c rfl)⟩

/-- Settles O34: the level before and after the tick are two neighbours on the line of the stage. -/
theorem levelMovesByAtMostOneSlope : Obligations.LevelMovesByAtMostOneSlope := by
  unfold Obligations.LevelMovesByAtMostOneSlope
  intro c e hc h hline
  obtain ⟨⟨hna, -⟩, ⟨hnd, -⟩, ⟨hnr, -⟩, hsus, -⟩ := (EgCfg.wf_iff c).1 hc
  have ⟨_, hstart, hstage⟩ := h
  refine ⟨fun hs => ?attack, fun hs => ?decay, fun hs => ?release, fun hs => ?held⟩
  case attack =>
    rw [(attack_movesAlong hc).level_egTick h hs, (Envelope.onLine_of_attack hs).1 hline]
    exact rising_succ_mem _ hna hstart.2 (by omega)
  case decay =>
    obtain ⟨-, hone⟩ := (Envelope.stageInv_of_decay hs).1 hstage
    rw [(decay_movesAlong hc).level_egTick h hs, (Envelope.onLine_of_decay hs).1 hline]
    exact falling_succ_mem _ hnd (by omega) (by omega)
  case release =>
    rw [(release_movesAlong hc).level_egTick h hs, (Envelope.onLine_of_release hs).1 hline]
    exact falling_succ_mem _ hnr hstart.1 (by omega)
  case held =>
    rcases hs with hs | hs
    · obtain ⟨hlevel, -⟩ := (Envelope.stageInv_of_idle hs).1 hstage
      rw [egTick_of_idle c hs, hlevel]
      exact s32_zero
    · obtain ⟨hlevel, -⟩ := (Envelope.stageInv_of_sustain hs).1 hstage
      rw [egTick_of_sustain c hs, hlevel]
      exact s32_u32_of_unit hsus

theorem fmul_comm (a b : Int) : fmul a b = fmul b a := by
  rw [fmul, fmul, Int.mul_comm]

/-- Settles O35: the level after the tick is in `0 .. ONE`, so the post-gain only shrinks it. -/
theorem envelopeOutputIsTheScaledLevel : Obligations.EnvelopeOutputIsTheScaledLevel := by
  unfold Obligations.EnvelopeOutputIsTheScaledLevel
  intro c e hc h
  obtain ⟨-, -, -, -, hpg⟩ := (EgCfg.wf_iff c).1 hc
  obtain ⟨⟨hlevel, hlevel1⟩, -, -⟩ := h.tick hc
  have hfits : s32 (egTick c e).level ≤ 2147483647 := (s32_bounds _).2
  have hout : egOut c e = fmul c.pg (s32 (egTick c e).level) := fmul_comm _ _
  obtain ⟨hlo, hhi⟩ := fmul_nonneg hpg.1 hpg.2 hlevel hfits
  refine ⟨rfl, hout ▸ hlo, hout ▸ hhi, hlevel1, fun hfull => ?fullGain, fun he => ?firstTick⟩
  case fullGain => rw [hout, hfull, fmul_one_left (by omega) hfits]
  case firstTick =>
    have hfirst := (attack_movesAlong hc).level_egTick h (by rw [he])
    rw [egOut, hfirst, he]
    simp [rising]

end Sys2Proof.Machine
end

section
/-! SUPPORT. The velocities (41_envelope.md R122): a simulation between states that differ in them alone. -/

namespace Sys2Proof.Machine

/-- The states agree in everything but the velocity of the note latch and that of the active note. -/
def State.SameButVelocities (s t : State) : Prop :=
  ∃ v w, t = { s with note := { s.note with vel := v }, latch := { s.latch with vel := w } }

section
variable {s s' t : State}

theorem State.sameButVelocities_refl (s : State) : s.SameButVelocities s := ⟨_, _, rfl⟩

theorem State.SameButVelocities.cfg (h : s.SameButVelocities s') : s'.cfg = s.cfg := by
  obtain ⟨_, _, rfl⟩ := h
  rfl

theorem State.SameButVelocities.input (h : s.SameButVelocities s') : s'.input = s.input := by
  obtain ⟨_, _, rfl⟩ := h
  rfl

theorem State.SameButVelocities.withInput (h : s.SameButVelocities s') (es : List Event) :
    State.SameButVelocities { s with input := es } { s' with input := es } := by
  obtain ⟨v, w, rfl⟩ := h
  exact ⟨v, w, rfl⟩

theorem State.SameButVelocities.takeSamples (h : s.SameButVelocities s') (i : Instr) (a b : Word) :
    (s.takeSamples i a b).SameButVelocities (s'.takeSamples i a b) := by
  obtain ⟨v, w, rfl⟩ := h
  cases i <;> exact ⟨v, w, rfl⟩

/-- A block boundary hands the latched velocity to the active note and reads it nowhere else (40_commands.md R91). -/
theorem State.SameButVelocities.blockBoundary (h : s.SameButVelocities s') :
    s.blockBoundary.SameButVelocities s'.blockBoundary := by
  obtain ⟨v, w, rfl⟩ := h
  rcases hev : s.latch.ev with _ | _
  · rw [s.blockBoundary_of_not_ev hev]
    exact ⟨v, w, State.blockBoundary_of_not_ev _ hev⟩
  · rw [s.blockBoundary_of_ev hev]
    exact ⟨w, w, State.blockBoundary_of_ev _ hev⟩

theorem State.SameButVelocities.paramWrite (h : s.SameButVelocities s') (a : Byte) (x : Word) :
    (s.paramWrite a x).SameButVelocities (s'.paramWrite a x) := by
  obtain ⟨v, w, rfl⟩ := h
  rcases hp : Param.ofAddr a with _ | p
  · rw [State.paramWrite_of_none _ x hp, State.paramWrite_of_none _ x hp]
    exact ⟨v, w, rfl⟩
  · rw [State.paramWrite_of_some _ x hp, State.paramWrite_of_some _ x hp]
    exact ⟨v, w, rfl⟩

/-- Every command keeps the agreement. -/
theorem State.SameButVelocities.exec (h : s.SameButVelocities s') {i : Instr} (he : exec i s = .next t) :
    ∃ t', exec i s' = .next t' ∧ t.SameButVelocities t' := by
  cases i with
  | nop =>
    obtain rfl : s = t := Host.Outcome.next.inj he
    exact ⟨s', exec_nop s', h⟩
  | setp a x =>
    obtain rfl : s.paramWrite a x = t := Host.Outcome.next.inj he
    exact ⟨_, exec_setp a x s', h.paramWrite a x⟩
  | getp a =>
    obtain rfl : s.respond (s.paramRead a) = t := Host.Outcome.next.inj he
    obtain ⟨v, w, rfl⟩ := h
    exact ⟨_, exec_getp a _, v, w, rfl⟩
  | note a gate x =>
    obtain rfl : { s with latch := s.latch.record a gate x } = t := Host.Outcome.next.inj he
    obtain ⟨v, w, rfl⟩ := h
    exact ⟨_, exec_note a gate x _, v, _, rfl⟩
  | blk =>
    obtain rfl : s.blockBoundary = t := Host.Outcome.next.inj he
    exact ⟨_, exec_blk s', h.blockBoundary⟩
  | tick =>
    obtain rfl : s.tickState.emit (tickOut s) (tickOut s) = t := Host.Outcome.next.inj he
    obtain ⟨v, w, rfl⟩ := h
    exact ⟨_, exec_tick _, v, w, rfl⟩

/-- Every step keeps the agreement: the two states find the same event at their input. -/
theorem State.SameButVelocities.step (h : s.SameButVelocities s') (hstep : step s = .next t) :
    ∃ t', step s' = .next t' ∧ t.SameButVelocities t' := by
  obtain ⟨hc, hcases⟩ := step_cases hstep
  have hc' : s'.cfg.wf = true := h.cfg ▸ hc
  rcases hcases with ⟨hi, rfl⟩ | ⟨rest, hi, rfl⟩ | ⟨w, a, b, rest, op, hi, hd, rfl⟩ | ⟨w, a, b, rest, i, hi, hd, he⟩
  · exact ⟨s', step_idle hc' (h.input.trans hi), h⟩
  · have hi' := h.input.trans hi
    obtain ⟨_, _, rfl⟩ := h
    exact ⟨_, step_rst hc' hi', State.sameButVelocities_refl _⟩
  · exact ⟨_, step_reserved hc' (h.input.trans hi) hd, h.withInput rest⟩
  · rw [step_command hc' (h.input.trans hi) hd]
    exact ((h.withInput rest).takeSamples i a b).exec he

end

/-- Settles O29: the simulation from one step, and the latch two notes leave. -/
theorem velocityIsInaudible : Obligations.VelocityIsInaudible := by
  unfold Obligations.VelocityIsInaudible
  refine ⟨fun s t v w hstep => ?step, fun s a gate v w => ⟨_, _, exec_note a gate v s, exec_note a gate w s, rfl⟩⟩
  have hsame : s.SameButVelocities { s with note := { s.note with vel := v }, latch := { s.latch with vel := w } } :=
    ⟨v, w, rfl⟩
  obtain ⟨t', ht, _, _, rfl⟩ := hsame.step hstep
  exact ⟨_, ht, rfl⟩

end Sys2Proof.Machine
end

section
/-! SUPPORT. The LFO increment, the scaling of the LFO samples and the two modulation selectors (42_lfo_modsel.md R131
to R137). Where a bound needs the value of `ONE`, `simp only [ONE]` shows it to `omega`. -/

namespace Sys2Proof.Machine

/-- The increment of a rate read from a word, by the unsigned value of the word (R131). -/
theorem toNat_lfoInc (fs : Nat) {rate : Word} (h : 0 ≤ s32 rate) :
    (lfoInc fs (s32 rate)).toNat = rate.toNat * 256 / fs % 2 ^ 32 := by
  have hmod := toNat_u32 (s32 rate * 256 / fs)
  rw [← toNat_of_s32_nonneg h] at hmod
  rw [lfoInc, ← toNat_of_s32_nonneg h]
  exact_mod_cast hmod

/-- From 256 Hz on the quotient of R131 stays below `2^31`. -/
theorem lfoQuotient_lt {fs : Nat} {rate : Word} (hfs : 256 ≤ fs) (h : 0 ≤ s32 rate) :
    rate.toNat * 256 / fs < 2 ^ 31 := by
  have hrate : (rate.toNat : Int) ≤ 2147483647 := toNat_of_s32_nonneg h ▸ (s32_bounds rate).2
  exact Nat.div_lt_of_lt_mul (by omega)

@[simp] theorem lfoInc_zero (fs : Nat) : lfoInc fs 0 = 0 := by
  simp [lfoInc]

/-- Settles O36: the quotient of R131, which `2^32` reduces only below 256 Hz. -/
theorem lfoIncrementFollowsTheRate : Obligations.LfoIncrementFollowsTheRate := by
  unfold Obligations.LfoIncrementFollowsTheRate
  refine ⟨fun fs rate _ h => ⟨toNat_lfoInc fs h, fun hfs => ?unreduced⟩, lfoInc_zero, by decide, by decide, by decide⟩
  have hlt := lfoQuotient_lt hfs h
  have hinc : (lfoInc fs (s32 rate)).toNat = rate.toNat * 256 / fs := by
    rw [toNat_lfoInc fs h, Nat.mod_eq_of_lt (by omega)]
  exact ⟨hinc, hinc ▸ hlt⟩

theorem trem_mem {w : Int} (h1 : -ONE ≤ w) (h2 : w ≤ ONE) : 0 ≤ trem w ∧ trem w ≤ ONE := by
  unfold trem
  omega

/-- The vibrato sample is at most `VIB_DEPTH` away from unity: the product by it never saturates (R134). -/
theorem vib_mem {w : Int} (h1 : -ONE ≤ w) (h2 : w ≤ ONE) : ONE - VIB_DEPTH ≤ vib w ∧ vib w ≤ ONE + VIB_DEPTH := by
  unfold vib
  simp only [ONE, VIB_DEPTH] at *
  rw [fmul_eq_floor (by norm_num) (by norm_num) (by omega) (by omega)]
  omega

/-- Settles O37: the two scalings by their definitions, their ranges by the bounds above. -/
theorem tremoloAndVibratoScaling : Obligations.TremoloAndVibratoScaling := by
  unfold Obligations.TremoloAndVibratoScaling
  refine ⟨fun w h1 h2 => ?_, by decide, by decide, by decide⟩
  obtain ⟨htrem, htrem1⟩ := trem_mem h1 h2
  obtain ⟨hvib, hvib1⟩ := vib_mem h1 h2
  exact ⟨rfl, htrem, htrem1, rfl, hvib, hvib1⟩

/-- Half way, the crossfade of two sources whose difference is a fix is their floored mean (00_scope.md R13). -/
theorem lerp_half {a b : Int} (h1 : -2147483648 ≤ b - a) (h2 : b - a ≤ 2147483647) : lerp a b (ONE / 2) = (a + b) / 2 := by
  rw [lerp, fmul_eq_floor (by norm_num) (by norm_num) h1 h2]
  norm_num only [ONE]
  omega

/-- Settles O38: the laws of the crossfade, for two sources in `0 .. ONE`. -/
theorem amplitudeSelectorCrossfades : Obligations.AmplitudeSelectorCrossfades := by
  unfold Obligations.AmplitudeSelectorCrossfades
  intro envA tr pos ha ha1 ht ht1 hp hp1
  simp only [ONE] at *
  obtain ⟨hlo, hhi⟩ := lerp_mem hp hp1 ha ha1 ht ht1 (by omega)
  exact ⟨rfl, hlo, hhi, lerp_zero envA tr, lerp_one (by omega) (by omega), lerp_half (by omega) (by omega)⟩

theorem freqSel_of_le {pos : Int} (envA vb : Int) (h : pos ≤ ONE) : freqSel envA vb pos = lerp ONE envA pos := if_pos h

/-- At `pos = ONE` both branches give the envelope (R137). -/
theorem freqSel_one {envA : Int} (vb : Int) (ha : 0 ≤ envA) (ha1 : envA ≤ ONE) : freqSel envA vb ONE = envA := by
  rw [freqSel_of_le envA vb le_rfl]
  simp only [ONE] at *
  exact lerp_one (by omega) (by omega)

/-- The second branch, with the position at which the two meet (R137). -/
theorem freqSel_of_ge {envA pos : Int} (vb : Int) (ha : 0 ≤ envA) (ha1 : envA ≤ ONE) (h : ONE ≤ pos) :
    freqSel envA vb pos = lerp envA vb (pos - ONE) := by
  rcases h.eq_or_lt with rfl | hlt
  · rw [freqSel_one vb ha ha1, sub_self, lerp_zero]
  · exact if_neg hlt.not_ge

/-- Each branch crossfades between two sources of `0 .. ONE + ONE/64` (R137). -/
theorem freqSel_mem {envA vb pos : Int} (ha : 0 ≤ envA) (ha1 : envA ≤ ONE) (hv : 0 ≤ vb) (hv1 : vb ≤ ONE + VIB_DEPTH)
    (hp : 0 ≤ pos) (hp1 : pos ≤ 2 * ONE) : 0 ≤ freqSel envA vb pos ∧ freqSel envA vb pos ≤ ONE + VIB_DEPTH := by
  rcases le_total pos ONE with h | h
  · rw [freqSel_of_le envA vb h]
    simp only [ONE, VIB_DEPTH] at *
    exact lerp_mem hp h (by omega) (by omega) ha (by omega) (by omega)
  · have ht : 0 ≤ pos - ONE ∧ pos - ONE ≤ ONE := by omega
    rw [freqSel_of_ge vb ha ha1 h]
    simp only [ONE, VIB_DEPTH] at *
    exact lerp_mem ht.1 ht.2 ha (by omega) hv hv1 (by omega)

/-- At frequency 0 the phase of oscillator 1 stands still (43_oscillator.md R170). -/
@[simp] theorem incOsc1_zero (n : Word) : incOsc1 n 0 = 0 := by
  simp [incOsc1]

/-- Settles O39: the crossfade of either branch, which meet at `pos = ONE`. -/
theorem frequencySelectorCrossfades : Obligations.FrequencySelectorCrossfades := by
  unfold Obligations.FrequencySelectorCrossfades
  intro envA vb pos ha ha1 hv hv1 hp hp1
  simp only [ONE] at *
  obtain ⟨hlo, hhi⟩ := freqSel_mem ha ha1 (by omega) hv1 hp hp1
  refine ⟨freqSel_of_le envA vb, freqSel_of_ge vb ha ha1, hlo, hhi, ?unity, freqSel_one vb ha ha1, ?vibrato, fun n => ?still⟩
  case unity => rw [freqSel_of_le envA vb (by norm_num), lerp_zero]
  case vibrato => exact (freqSel_of_ge vb ha ha1 (by norm_num)).trans (lerp_one (by omega) (by omega))
  case still => rw [freqSel_one vb le_rfl (by norm_num), incOsc1_zero]

end Sys2Proof.Machine
end

section
/-! SUPPORT. The sine (43_oscillator.md R151, R152): its first quarter interpolates the table and rises, and the symmetries that
give the other three quarters. -/

namespace Sys2Proof.Machine

/-- Between two neighbours of the table, both included, the first quarter is their linear interpolation (R151). -/
theorem sinQuarter_interpolates {i f : Nat} (hi : i < 64) (hf : f ≤ 16777216) :
    sinQuarter (i * 16777216 + f) = sinT i + (sinT (i + 1) - sinT i) * f / 16777216 := by
  rcases hf.lt_or_eq with hf | rfl
  · have hidx : (i * 16777216 + f) / 16777216 = i := by omega
    have hfrac : (i * 16777216 + f) % 16777216 = f := by omega
    simp [sinQuarter, hidx, hfrac, hi.ne]
  · have hidx : (i * 16777216 + 16777216) / 16777216 = i + 1 := by omega
    have hfrac : (i * 16777216 + 16777216) % 16777216 = 0 := by omega
    have hend : sinQuarter (i * 16777216 + 16777216) = sinT (i + 1) := by
      by_cases h : i + 1 = 64 <;> simp [sinQuarter, hidx, hfrac, h]
    rw [hend]
    omega

/-- One unit of phase never lowers the first quarter: both phases lie between the same two neighbours of the table. -/
theorem sinQuarter_le_succ {r : Nat} (h : r < 1073741824) : sinQuarter r ≤ sinQuarter (r + 1) := by
  obtain ⟨i, f, hi, hf, rfl⟩ : ∃ i f, i < 64 ∧ f < 16777216 ∧ r = i * 16777216 + f :=
    ⟨r / 16777216, r % 16777216, by omega, by omega, by omega⟩
  have hd : 0 ≤ sinT (i + 1) - sinT i := Int.sub_nonneg.2 (sinT_lt_succ i hi).le
  have hmul := Int.mul_le_mul_of_nonneg_left (Int.ofNat_le.2 f.le_succ) hd
  have hdiv := Int.ediv_le_ediv (show (0 : Int) < 16777216 by norm_num) hmul
  rw [Nat.add_assoc, sinQuarter_interpolates hi hf.le, sinQuarter_interpolates hi hf]
  exact Int.add_le_add_left hdiv (sinT i)

/-- The first quarter is non-decreasing (R152). -/
theorem sinQuarter_mono {a b : Nat} (hab : a ≤ b) (hb : b ≤ 1073741824) : sinQuarter a ≤ sinQuarter b := by
  induction b, hab using Nat.le_induction with
  | base => exact le_rfl
  | succ b _ ih => exact (ih (by omega)).trans (sinQuarter_le_succ (by omega))

/-- The sine on the first quarter, both ends included (R151). -/
theorem sinQ_of_le_quarter {p : Word} (h : p.toNat ≤ 1073741824) : sinQ p = sinQuarter p.toNat := by
  rcases h.lt_or_eq with h | h
  · simp [sinQ, Nat.div_eq_of_lt h, Nat.mod_eq_of_lt h]
  · simp [sinQ, h]

/-- The sine on the second quarter, both ends included, is the first one run backwards (R151). -/
theorem sinQ_of_ge_quarter {p : Word} (h : 1073741824 ≤ p.toNat) (h' : p.toNat ≤ 2147483648) :
    sinQ p = sinQuarter (2147483648 - p.toNat) := by
  rcases h'.lt_or_eq with h' | h'
  · have hq : p.toNat / 1073741824 = 1 := by omega
    have hr : 1073741824 - p.toNat % 1073741824 = 2147483648 - p.toNat := by omega
    simp [sinQ, hq, hr]
  · obtain rfl : p = 0x80000000#32 := BitVec.eq_of_toNat_eq h'
    decide

/-- Half a cycle on, the sine changes its sign (R151). -/
theorem sinQ_add_half (p : Word) : sinQ (p + 0x80000000#32) = -sinQ p := by
  have hsum : (p + 0x80000000#32).toNat = (p.toNat + 2147483648) % 4294967296 := BitVec.toNat_add ..
  have hp := p.isLt
  have hquarter : (p + 0x80000000#32).toNat % 1073741824 = p.toNat % 1073741824 := by omega
  have hparity : (p + 0x80000000#32).toNat / 1073741824 % 2 = p.toNat / 1073741824 % 2 := by omega
  have hhalf : 2 ≤ (p + 0x80000000#32).toNat / 1073741824 ↔ ¬ 2 ≤ p.toNat / 1073741824 := by omega
  by_cases h : 2 ≤ p.toNat / 1073741824 <;> simp [sinQ, hquarter, hparity, hhalf, h, -BitVec.toNat_add]

/-- The second quarter mirrors the first (R151). -/
theorem sinQ_half_sub_of_le_quarter {p : Word} (h : p.toNat ≤ 1073741824) : sinQ (0x80000000#32 - p) = sinQ p := by
  have hsub : (0x80000000#32 - p).toNat = 2147483648 - p.toNat := by bv_omega
  rw [sinQ_of_ge_quarter (by omega) (by omega), sinQ_of_le_quarter h, hsub, Nat.sub_sub_self (by omega)]

/-- The first half cycle is symmetric about its middle. -/
theorem sinQ_half_sub {p : Word} (h : p.toNat ≤ 2147483648) : sinQ (0x80000000#32 - p) = sinQ p := by
  rcases le_total p.toNat 1073741824 with hq | hq
  · exact sinQ_half_sub_of_le_quarter hq
  · have hsub : (0x80000000#32 - p).toNat ≤ 1073741824 := by bv_omega
    rw [← sinQ_half_sub_of_le_quarter hsub, sub_sub_cancel]

/-- The sine is odd on the first half cycle: `-p` is half a cycle on from the mirror image of `p`. -/
theorem sinQ_neg_of_le_half {p : Word} (h : p.toNat ≤ 2147483648) : sinQ (-p) = -sinQ p := by
  have hmirror : -p = 0x80000000#32 - p + 0x80000000#32 := by bv_omega
  rw [hmirror, sinQ_add_half, sinQ_half_sub h]

/-- The sine is odd (R152). -/
theorem sinQ_neg (p : Word) : sinQ (-p) = -sinQ p := by
  rcases le_total p.toNat 2147483648 with h | h
  · exact sinQ_neg_of_le_half h
  · have hback : (p + 0x80000000#32).toNat ≤ 2147483648 := by bv_omega
    have hshift : -p = -(p + 0x80000000#32) + 0x80000000#32 := by bv_omega
    rw [hshift, sinQ_add_half, sinQ_neg_of_le_half hback, sinQ_add_half, neg_neg]

/-- Settles O58: the first quarter by its interpolation, the others by the symmetries. -/
theorem sineInterpolatesItsTable : Obligations.SineInterpolatesItsTable := by
  unfold Obligations.SineInterpolatesItsTable
  norm_num only -- the powers of two become the numerals of the model and its laws
  refine ⟨fun i f hi hf => ?interpolated, by decide, fun r hr => ?mirrored, fun r hr => ?negated⟩
  case interpolated =>
    have hp : (BitVec.ofNat 32 (i * 16777216 + f)).toNat = i * 16777216 + f :=
      (BitVec.toNat_ofNat _ 32).trans (Nat.mod_eq_of_lt (by omega))
    rw [sinQ_of_le_quarter (by omega), hp, sinQuarter_interpolates hi hf.le]
  case mirrored =>
    have hr32 : (BitVec.ofNat 32 r).toNat = r := (BitVec.toNat_ofNat r 32).trans (Nat.mod_eq_of_lt (by omega))
    have hp : BitVec.ofNat 32 (2147483648 - r) = 0x80000000#32 - BitVec.ofNat 32 r := by bv_omega
    rw [hp, sinQ_half_sub_of_le_quarter (by omega)]
  case negated =>
    have hp : BitVec.ofNat 32 (2147483648 + r) = BitVec.ofNat 32 r + 0x80000000#32 := by
      rw [Nat.add_comm]
      exact BitVec.ofNat_add r 2147483648
    rw [hp, sinQ_add_half]

/-- Settles O40: oddness by the symmetries, the rest by the first quarter. -/
theorem sineIsBoundedOddAndRising : Obligations.SineIsBoundedOddAndRising := by
  unfold Obligations.SineIsBoundedOddAndRising
  norm_num only
  refine ⟨fun p => ?bounded, fun p q hpq hq => ?rising, by decide, by decide, by decide, by decide, by decide, by decide⟩
  case bounded =>
    obtain ⟨hlo, hhi⟩ := sinQ_mem p
    exact ⟨hlo, hhi, sinQ_neg p⟩
  case rising =>
    rw [sinQ_of_le_quarter (hpq.trans hq), sinQ_of_le_quarter hq]
    exact sinQuarter_mono hpq hq

end Sys2Proof.Machine
end

section
/-! SUPPORT. The waveforms (43_oscillator.md R156 to R168): each but ModulatedSine as the crossfade from its base to its target
shape, both within `-ONE .. ONE`. Where a bound needs the value of `ONE`, `simp only [ONE]` shows it to `omega`. -/

namespace Sys2Proof.Machine

/-- A factor in `-ONE .. ONE` keeps a product within the amplitude it scales (00_scope.md R13, 43_oscillator.md R173). -/
theorem fmul_mem_amplitude {a b : Int} (ha : 0 ≤ a) (ha1 : a ≤ ONE) (hb : -ONE ≤ b) (hb1 : b ≤ ONE) :
    -a ≤ fmul a b ∧ fmul a b ≤ a := by
  simp only [ONE] at *
  have hlo := Int.mul_le_mul_of_nonneg_left hb ha
  have hhi := Int.mul_le_mul_of_nonneg_left hb1 ha
  rw [fmul_eq_floor ha ha1 (by omega) (by omega)]
  omega

/-- What a waveform is at sharpness 0 (R157 to R162, R166, R167). -/
def waveBase (type : Waveform) (g : Generator) : Int :=
  match type with
  | .sawUp => -sinQ g.phase
  | .sampleHold => sampleRamp g
  | .sawDown | .square | .triangle | .pulse | .bipolarPulse | .modulatedSine => sinQ g.phase

/-- What a waveform is at sharpness `ONE` (R157 to R162, R166); ModulatedSine, which is no crossfade (R167), has no shape but
its base. -/
def waveShape (type : Waveform) (g : Generator) : Int :=
  match type with
  | .sawUp => 2 * phi g.phase - ONE
  | .sawDown => ONE - 2 * phi g.phase
  | .square => squareShape g.phase
  | .triangle => triangleShape (phi g.phase)
  | .pulse => pulseShape (phi g.phase)
  | .bipolarPulse => bipolarShape (phi g.phase)
  | .sampleHold => s32 g.shCur
  | .modulatedSine => sinQ g.phase

/-- Every waveform but ModulatedSine is the crossfade from its base to its shape (R156). -/
theorem wave_eq_lerp {type : Waveform} (h : type ≠ .modulatedSine) (sharp : Int) (g : Generator) :
    wave type sharp g = lerp (waveBase type g) (waveShape type g) sharp := by
  cases type with
  | modulatedSine => exact absurd rfl h
  | _ => rfl

/-- The base of a waveform but SawUp and SampleHold (R156). -/
theorem waveBase_of_sine {type : Waveform} {g : Generator} (hsaw : type ≠ .sawUp) (hhold : type ≠ .sampleHold) :
    waveBase type g = sinQ g.phase := by
  cases type with
  | sawUp => exact absurd rfl hsaw
  | sampleHold => exact absurd rfl hhold
  | _ => rfl

/-- No waveform reads the pseudo-random word of its generator (R156). -/
theorem wave_withLfsr (type : Waveform) (sharp : Int) (g : Generator) (l : Word) :
    wave type sharp { g with lfsr := l } = wave type sharp g := by
  cases type <;> rfl

/-- The crossfade written out, for a shape whose form is known. -/
theorem wave_crossfades (sharp : Int) {g : Generator} (type : Waveform) (ht : type ≠ .modulatedSine) {shape : Int}
    (hshape : waveShape type g = shape) :
    wave type sharp g = waveBase type g + fmul sharp (shape - waveBase type g) :=
  hshape ▸ wave_eq_lerp ht sharp g

theorem squareShape_mem (p : Word) : -ONE ≤ squareShape p ∧ squareShape p ≤ ONE := by
  unfold squareShape
  split <;> decide

theorem triangleShape_mem {f : Int} (h : 0 ≤ f) (h' : f ≤ ONE - 1) :
    -ONE ≤ triangleShape f ∧ triangleShape f ≤ ONE := by
  unfold triangleShape
  simp only [ONE] at *
  split
  · omega
  · split <;> omega

theorem pulseShape_mem (f : Int) : -ONE ≤ pulseShape f ∧ pulseShape f ≤ ONE := by
  unfold pulseShape
  split <;> decide

theorem bipolarShape_mem (f : Int) : -ONE ≤ bipolarShape f ∧ bipolarShape f ≤ ONE := by
  unfold bipolarShape
  split
  · decide
  · split <;> decide

section
variable {g : Generator} (h : g.Inv)
include h

/-- The ramp of SampleHold is a crossfade between the two samples of its generator (R166). -/
theorem sampleRamp_mem : -ONE ≤ sampleRamp g ∧ sampleRamp g ≤ ONE := by
  obtain ⟨-, hprev, hcur⟩ := h
  obtain ⟨hphi, hphi1⟩ := phi_mem g.phase
  have htop : ONE - 1 ≤ ONE := by decide
  exact lerp_mem hphi (hphi1.trans htop) hprev.1 (hprev.2.trans htop) hcur.1 (hcur.2.trans htop) (by decide)

theorem waveBase_mem (type : Waveform) : -ONE ≤ waveBase type g ∧ waveBase type g ≤ ONE := by
  have hsin := sinQ_mem g.phase
  cases type with
  | sawUp =>
    simp only [waveBase]
    omega
  | sampleHold => exact sampleRamp_mem h
  | _ => exact hsin

theorem waveShape_mem (type : Waveform) : -ONE ≤ waveShape type g ∧ waveShape type g ≤ ONE := by
  obtain ⟨hphi, hphi1⟩ := phi_mem g.phase
  cases type with
  | sawUp | sawDown =>
    simp only [waveShape]
    omega
  | square => exact squareShape_mem g.phase
  | triangle => exact triangleShape_mem hphi hphi1
  | pulse => exact pulseShape_mem _
  | bipolarPulse => exact bipolarShape_mem _
  | sampleHold =>
    obtain ⟨-, -, hlo, hhi⟩ := h
    exact ⟨hlo, hhi.trans (by decide)⟩
  | modulatedSine => exact sinQ_mem g.phase

/-- Every waveform stays in `-ONE .. ONE` (R156, R168). -/
theorem wave_mem (type : Waveform) {sharp : Int} (hs : 0 ≤ sharp) (hs1 : sharp ≤ ONE) :
    -ONE ≤ wave type sharp g ∧ wave type sharp g ≤ ONE := by
  by_cases hmod : type = .modulatedSine
  · subst hmod
    exact sinQ_mem _
  · obtain ⟨hb, hb1⟩ := waveBase_mem h type
    obtain ⟨ht, ht1⟩ := waveShape_mem h type
    rw [wave_eq_lerp hmod]
    exact lerp_mem hs hs1 hb hb1 ht ht1 (by norm_num)

/-- At full sharpness a waveform is its shape (R157 to R162, R166). -/
theorem wave_one (type : Waveform) (ht : type ≠ .modulatedSine) : wave type ONE g = waveShape type g := by
  have hb := waveBase_mem h type
  have hs := waveShape_mem h type
  simp only [ONE] at hb hs
  rw [wave_eq_lerp ht, lerp_one (by omega) (by omega)]

end

/-- At sharpness 0 a waveform is its base (R156). -/
theorem wave_zero (type : Waveform) (g : Generator) : wave type 0 g = waveBase type g := by
  cases type with
  | modulatedSine => simp [wave, waveBase, sineDeviation, u32]
  | _ => exact lerp_zero _ _

/-- The phase deviation of ModulatedSine is at most half a cycle (R167). -/
theorem sineDeviation_mem {sharp : Int} (hs : 0 ≤ sharp) (hs1 : sharp ≤ ONE) (p : Word) :
    -(ONE / 2) ≤ sineDeviation sharp p ∧ sineDeviation sharp p ≤ ONE / 2 := by
  obtain ⟨hd, hd1⟩ := fmul_nonneg hs hs1 (b := MOD_DEPTH) (by decide) (by decide)
  obtain ⟨hb, hb1⟩ := sinQ_mem p
  obtain ⟨hlo, hhi⟩ := fmul_mem_amplitude hd (hd1.trans (by decide)) hb hb1
  exact ⟨(neg_le_neg hd1).trans hlo, hhi.trans hd1⟩

-- The target shapes in the unit of `phi` (R160 to R162)

theorem triangleShape_of_lt {f : Int} (h : f < 4194304) : triangleShape f = 4 * f := if_pos h

theorem triangleShape_of_mid {f : Int} (h : 4194304 ≤ f) (h' : f < 12582912) : triangleShape f = 2 * ONE - 4 * f :=
  (if_neg h.not_gt).trans (if_pos h')

theorem triangleShape_of_ge {f : Int} (h : 12582912 ≤ f) : triangleShape f = 4 * f - 4 * ONE :=
  (if_neg (by omega)).trans (if_neg h.not_gt)

theorem pulseShape_eq (f : Int) : pulseShape f = if 3145728 ≤ f ∧ f < 5242880 then ONE else 0 := by
  norm_num only [pulseShape]

theorem bipolarShape_eq (f : Int) : bipolarShape f =
    if 3145728 ≤ f ∧ f < 5242880 then ONE else if 11534336 ≤ f ∧ f < 13631488 then -ONE else 0 := by
  norm_num only [bipolarShape]

/-- Settles O41, by the bounds of base and shape. -/
theorem waveStaysInUnitRange : Obligations.WaveStaysInUnitRange := by
  unfold Obligations.WaveStaysInUnitRange
  intro type sharp g hs hs1 h
  exact wave_mem h type hs hs1

/-- Settles O42: sharpness 0 leaves the base, sharpness `ONE` the shape. -/
theorem waveEndsAreTheSineAndTheShape : Obligations.WaveEndsAreTheSineAndTheShape := by
  unfold Obligations.WaveEndsAreTheSineAndTheShape
  intro g h
  norm_num only
  exact ⟨⟨wave_zero .sawUp g, wave_zero .sawDown g, wave_zero .square g, wave_zero .triangle g, wave_zero .pulse g,
      wave_zero .bipolarPulse g, wave_zero .sampleHold g, wave_zero .modulatedSine g⟩,
    wave_one h .sawUp nofun, wave_one h .sawDown nofun, wave_one h .square nofun,
    fun hf => (wave_one h .triangle nofun).trans (triangleShape_of_lt hf),
    fun hf hf' => (wave_one h .triangle nofun).trans (triangleShape_of_mid hf hf'),
    fun hf => (wave_one h .triangle nofun).trans (triangleShape_of_ge hf),
    (wave_one h .pulse nofun).trans (pulseShape_eq _), (wave_one h .bipolarPulse nofun).trans (bipolarShape_eq _),
    wave_one h .sampleHold nofun⟩

/-- Settles O56: the crossfade for types 0 to 6, and ModulatedSine by its definition. -/
theorem waveIsTheCrossfadeOfBaseAndShape : Obligations.WaveIsTheCrossfadeOfBaseAndShape := by
  unfold Obligations.WaveIsTheCrossfadeOfBaseAndShape
  refine ⟨by decide, fun sharp g hs hs1 h => ?_⟩
  norm_num only
  refine ⟨wave_crossfades sharp .sawUp nofun rfl, wave_crossfades sharp .sawDown nofun rfl,
    wave_crossfades sharp .square nofun rfl,
    fun hf => wave_crossfades sharp .triangle nofun (triangleShape_of_lt hf),
    fun hf hf' => wave_crossfades sharp .triangle nofun (triangleShape_of_mid hf hf'),
    fun hf => wave_crossfades sharp .triangle nofun (triangleShape_of_ge hf),
    wave_crossfades sharp .pulse nofun (pulseShape_eq _),
    wave_crossfades sharp .bipolarPulse nofun (bipolarShape_eq _),
    wave_crossfades sharp .sampleHold nofun rfl,
    ⟨_, toNat_u32 _, rfl⟩, sineDeviation_mem hs hs1 g.phase, ?sharpnessZero, ?silentHold,
    fun type => ⟨wave_mem h type hs hs1, fun l => wave_withLfsr type sharp g l⟩⟩
  case sharpnessZero =>
    rintro rfl
    refine ⟨wave_zero .sawUp g, fun type hsaw hhold => ?_⟩
    rw [wave_zero, waveBase_of_sine hsaw hhold]
  case silentHold =>
    intro hprev hcur
    have hramp : sampleRamp g = 0 := by simp [sampleRamp, hprev, hcur]
    simp [wave, lerp, hramp, hcur]

end Sys2Proof.Machine
end

section
/-! SUPPORT. The pseudo-random words and the phase of a generator (43_oscillator.md R153, R163, R164). -/

namespace Sys2Proof.Machine

theorem shiftLeft_eq_ofNat (x : Word) (k : Nat) : x <<< k = BitVec.ofNat 32 (x.toNat * 2 ^ k) := by
  rw [← Nat.shiftLeft_eq]
  rfl

theorem ushiftRight_eq_ofNat (x : Word) (k : Nat) : x >>> k = BitVec.ofNat 32 (x.toNat / 2 ^ k) := by
  rw [← Nat.shiftRight_eq_div_pow, ← BitVec.toNat_ushiftRight, BitVec.ofNat_toNat, BitVec.setWidth_eq]

/-- Settles O43: each shift is a product or a quotient by a power of two. -/
theorem xorShiftKeepsNonzero : Obligations.XorShiftKeepsNonzero := by
  unfold Obligations.XorShiftKeepsNonzero
  refine ⟨fun x => ?shifts, fun x hx => xorShift32_ne_zero hx, by decide, by decide⟩
  simp only [xorShift32, shiftLeft_eq_ofNat, ushiftRight_eq_ofNat]

/-- The sample a new cycle draws, which fits in its register (R164). -/
theorem s32_newCycle_shCur (g : Generator) :
    s32 (newCycle g).shCur = ((xorShift32 g.lfsr).toNat / 128 : Nat) - ONE := by
  have := (xorShift32 g.lfsr).isLt
  simp only [newCycle, ONE]
  exact s32_u32 (by omega) (by omega)

/-- Below `2^32` only the phase moves (R163). -/
theorem advance_of_lt {g : Generator} {inc : Word} (h : g.phase.toNat + inc.toNat < 4294967296) :
    advance g inc = { g with phase := g.phase + inc } :=
  if_neg h.not_ge

/-- From `2^32` on a new cycle begins (R163, R164). -/
theorem advance_of_ge {g : Generator} {inc : Word} (h : 4294967296 ≤ g.phase.toNat + inc.toNat) :
    advance g inc = { newCycle g with phase := g.phase + inc } :=
  if_pos h

/-- Settles O44: the two cases of `Advance`; increment 0 is in the first. -/
theorem advanceAccumulatesThePhase : Obligations.AdvanceAccumulatesThePhase := by
  unfold Obligations.AdvanceAccumulatesThePhase
  norm_num only
  intro g inc
  have hphase : (g.phase + inc).toNat = (g.phase.toNat + inc.toNat) % 4294967296 := BitVec.toNat_add ..
  have hinc := inc.isLt
  have hp := g.phase.isLt
  refine ⟨fun h => ?noWrap, fun h => ?wrap, ?still⟩
  case noWrap =>
    rw [advance_of_lt h]
    exact ⟨hphase.trans (Nat.mod_eq_of_lt h), rfl⟩
  case wrap =>
    rw [advance_of_ge h]
    exact ⟨hphase.trans (by omega), rfl, rfl, s32_newCycle_shCur g⟩
  case still => rw [advance_of_lt (inc := 0) hp, add_zero]

end Sys2Proof.Machine
end

section
/-! SUPPORT. The increments of the three oscillators (43_oscillator.md R170, R172). -/

namespace Sys2Proof.Machine

/-- The word of a natural number has its remainder modulo `2^32` as its unsigned value (00_scope.md R13). -/
theorem toNat_u32_natCast (n : Nat) : (u32 n).toNat = n % 2 ^ 32 := by
  rw [u32, BitVec.ofInt_natCast, BitVec.toNat_ofNat]

theorem u32_toNat (w : Word) : u32 w.toNat = w := by
  rw [u32, BitVec.ofInt_natCast, BitVec.ofNat_toNat, BitVec.setWidth_eq]

/-- The increment of oscillator 1 by the unsigned value of the note's (R170). -/
theorem toNat_incOsc1 (n : Word) (fm : Nat) : (incOsc1 n fm).toNat = n.toNat * fm / 2 ^ 24 % 2 ^ 32 := by
  rw [← toNat_u32_natCast, incOsc1]
  push_cast
  norm_num only

theorem incOsc1_one (n : Word) : incOsc1 n ONE = n := by
  rw [incOsc1, Int.mul_ediv_cancel _ (by norm_num), u32_toNat]

/-- Settles O45: the quotient of R170, which unity and zero make exact. -/
theorem firstIncrementIsTheScaledNote : Obligations.FirstIncrementIsTheScaledNote := by
  unfold Obligations.FirstIncrementIsTheScaledNote
  exact fun n fm => ⟨toNat_incOsc1 n fm, incOsc1_one n, incOsc1_zero n⟩

theorem det30_nonneg (d : Int) : 0 ≤ det30 d := by
  unfold det30
  split
  · exact Int.natCast_nonneg _
  · exact le_rfl

/-- The increment of oscillators 2 and 3 by the unsigned value of oscillator 1's (R172). -/
theorem toNat_incN (n : Word) (d : Int) (r : Nat) :
    (incN n d r).toNat = n.toNat * (det30 d).toNat / 2 ^ 30 * r % 2 ^ 32 := by
  have hratio := Int.toNat_of_nonneg (det30_nonneg d)
  rw [← toNat_u32_natCast, incN, ← hratio]
  push_cast
  norm_num only [Int.toNat_natCast]

/-- The octave range 1 without transposition is the identity (R172). -/
theorem incN_unison (n : Word) : incN n 0 1 = n := by
  have hratio : det30 0 = 1073741824 := by decide
  rw [incN, hratio, Int.mul_ediv_cancel _ (by norm_num), mul_one, u32_toNat]

/-- Twelve semitones double the increment (R172). -/
theorem incN_octave (n : Word) : incN n 12 1 = n + n := by
  have hratio : det30 12 = 2 * 1073741824 := by decide
  rw [incN, hratio, ← mul_assoc, Int.mul_ediv_cancel _ (by norm_num), mul_one, mul_two, u32, BitVec.ofInt_add]
  exact congrArg₂ _ (u32_toNat n) (u32_toNat n)

/-- Settles O46: the law of `IncN`, and the two generators a `TICK` advances by it. -/
theorem derivedIncrementsAreMultiplicative : Obligations.DerivedIncrementsAreMultiplicative := by
  unfold Obligations.DerivedIncrementsAreMultiplicative
  exact ⟨fun n d r _ _ => toNat_incN n d r, fun n => ⟨incN_unison n, incN_octave n⟩,
    fun s => ⟨rfl, rfl, _, exec_tick s, rfl, rfl⟩⟩

end Sys2Proof.Machine
end

section
/-! SUPPORT. The oscillators in a tick (43_oscillator.md R173 to R175, 44_filter_output.md R182): each within its amplitude, the
third without a trace when it is disabled, and the bounds of their sum. -/

namespace Sys2Proof.Machine

/-- An oscillator stays within its amplitude (R173). -/
theorem oscOut_mem {a sharp : Int} {g : Generator} (ha : 0 ≤ a) (ha1 : a ≤ ONE) (hs : 0 ≤ sharp) (hs1 : sharp ≤ ONE)
    (h : g.Inv) (type : Waveform) : -a ≤ oscOut a type sharp g ∧ oscOut a type sharp g ≤ a := by
  obtain ⟨hw, hw1⟩ := wave_mem h type hs hs1
  exact fmul_mem_amplitude ha ha1 hw hw1

/-- Settles O48: the bound of the product, and the amplitudes of a tick by definition. -/
theorem oscillatorStaysWithinItsAmplitude : Obligations.OscillatorStaysWithinItsAmplitude := by
  unfold Obligations.OscillatorStaysWithinItsAmplitude
  exact ⟨fun a type sharp g ha ha1 hs hs1 h => ⟨rfl, oscOut_mem ha ha1 hs hs1 h type⟩, fun s => ⟨rfl, rfl⟩⟩

/-- Oscillator 3 with its switch on (R174). -/
theorem oscAmp3_of_on {switch3 : Int} (amp mul : Int) (h : switch3 = 1) : oscAmp3 amp mul switch3 = fmul amp mul :=
  if_pos h

/-- Oscillator 3 with its switch off (R174). -/
theorem oscAmp3_of_off {switch3 : Int} (amp mul : Int) (h : switch3 ≠ 1) : oscAmp3 amp mul switch3 = 0 := if_neg h

/-- The state with other contents of `A.type3`, `A.sharp3`, `A.mul3` and another generator of oscillator 3. -/
def State.withOsc3 (s : State) (type sharp mul : Word) (g : Generator) : State :=
  { s with act := { s.act with type3 := type, sharp3 := sharp, mul3 := mul }, osc3 := g }

section
variable {s : State}

/-- A disabled oscillator 3 contributes 0 (R174). -/
theorem tickO3_of_off (h : s32 s.act.switch3 = 0) : tickO3 s = 0 := by
  rw [tickO3, oscAmp3_of_off _ _ (by omega), oscOut, fmul_zero_left]

/-- Only through its sample could oscillator 3 reach the filter input (R175, R182). -/
theorem tickX_withOsc3 (h : s32 s.act.switch3 = 0) (type sharp mul : Word) (g : Generator) :
    tickX (s.withOsc3 type sharp mul g) = tickX s := by
  have h' : tickO3 (s.withOsc3 type sharp mul g) = 0 := tickO3_of_off h
  rw [tickX, tickBank, h', tickX, tickBank, tickO3_of_off h]
  rfl

theorem tickFilter_withOsc3 (h : s32 s.act.switch3 = 0) (type sharp mul : Word) (g : Generator) :
    tickFilter (s.withOsc3 type sharp mul g) = tickFilter s := by
  rw [tickFilter, tickX_withOsc3 h]
  rfl

theorem tickOut_withOsc3 (h : s32 s.act.switch3 = 0) (type sharp mul : Word) (g : Generator) :
    tickOut (s.withOsc3 type sharp mul g) = tickOut s := by
  rw [tickOut, tickFilter_withOsc3 h, tickOut]

/-- A tick with oscillator 3 disabled carries its registers along and advances its generator, and is otherwise the same tick
(R174). -/
theorem tickState_withOsc3 (h : s32 s.act.switch3 = 0) (type sharp mul : Word) (g : Generator) :
    (s.withOsc3 type sharp mul g).tickState = s.tickState.withOsc3 type sharp mul (advance g (tickInc3 s)) := by
  rw [State.tickState, tickFilter_withOsc3 h]
  rfl

end

/-- Settles O49: the enabled amplitude by definition; disabled, the two ticks agree through every signal up to the output. -/
theorem disabledOscillatorThreeIsSilent : Obligations.DisabledOscillatorThreeIsSilent := by
  unfold Obligations.DisabledOscillatorThreeIsSilent
  refine ⟨fun s h => ?enabled, fun s h => ⟨tickO3_of_off h, fun type sharp mul g => ⟨_, exec_tick s, rfl, ?disabled⟩⟩⟩
  case enabled => rw [tickO3, oscAmp3_of_on _ _ h]
  case disabled =>
    refine (exec_tick (s.withOsc3 type sharp mul g)).trans ?_
    rw [tickOut_withOsc3 h, tickState_withOsc3 h]
    rfl

section
variable {s : State} (h : s.Inv)
include h

/-- The amplitude of a tick lies in `0 .. ONE` (42_lfo_modsel.md R136). -/
theorem State.Inv.tickAmp_mem : 0 ≤ tickAmp s ∧ tickAmp s ≤ ONE := by
  obtain ⟨-, -, hlfo, -, -⟩ := (Cfg.wf_iff s.cfg).1 h.cfg
  obtain ⟨-, henv, hlevel, hone, -, -⟩ := envelopeOutputIsTheScaledLevel _ _ h.egCfg.1 h.ega
  obtain ⟨hw, hw1⟩ := wave_mem h.lfoT s.cfg.lfoT.type hlfo.1 hlfo.2
  obtain ⟨htrem, htrem1⟩ := trem_mem hw hw1
  obtain ⟨hsel, hsel1⟩ := h.act .selectorAdsrtremolo
  exact lerp_mem hsel hsel1 henv (hlevel.trans hone) htrem htrem1 (by norm_num)

/-- An amplitude scaled by a gain register is again one in `0 .. ONE` (43_oscillator.md R173). -/
theorem State.Inv.oscAmp_mem {mul : Int} (hm : 0 ≤ mul) (hm1 : mul ≤ ONE) :
    0 ≤ oscAmp (tickAmp s) mul ∧ oscAmp (tickAmp s) mul ≤ ONE := by
  obtain ⟨hamp, hamp1⟩ := h.tickAmp_mem
  obtain ⟨hlo, hhi⟩ := fmul_nonneg hamp hamp1 hm (hm1.trans (by decide))
  exact ⟨hlo, hhi.trans hm1⟩

/-- So is that of oscillator 3, switched on or off (R174). -/
theorem State.Inv.oscAmp3_mem {mul : Int} (hm : 0 ≤ mul) (hm1 : mul ≤ ONE) (switch3 : Int) :
    0 ≤ oscAmp3 (tickAmp s) mul switch3 ∧ oscAmp3 (tickAmp s) mul switch3 ≤ ONE := by
  by_cases hon : switch3 = 1
  · rw [oscAmp3_of_on _ _ hon]
    exact h.oscAmp_mem hm hm1
  · rw [oscAmp3_of_off _ _ hon]
    decide

end

/-- An oscillator with an amplitude in `0 .. ONE` is a signal in `-ONE .. ONE`. -/
theorem oscOut_mem_one {a sharp : Int} {g : Generator} (ha : 0 ≤ a ∧ a ≤ ONE) (hs : 0 ≤ sharp ∧ sharp ≤ ONE) (h : g.Inv)
    (type : Waveform) : -ONE ≤ oscOut a type sharp g ∧ oscOut a type sharp g ≤ ONE := by
  obtain ⟨hlo, hhi⟩ := oscOut_mem ha.1 ha.2 hs.1 hs.2 h type
  exact ⟨(neg_le_neg ha.2).trans hlo, hhi.trans ha.2⟩

/-- A voice with a gain in `0 .. ONE` is a signal in `-ONE .. ONE` (44_filter_output.md R181). -/
theorem noiseMux_mem {whiteGain pinkGain : Int} (hw : 0 ≤ whiteGain ∧ whiteGain ≤ ONE)
    (hp : 0 ≤ pinkGain ∧ pinkGain ≤ ONE) (white pink : Word) (voiceSel : Int) :
    -ONE ≤ noiseMux white pink voiceSel whiteGain pinkGain ∧
      noiseMux white pink voiceSel whiteGain pinkGain ≤ ONE := by
  have hvoice {gain : Int} (hg : 0 ≤ gain ∧ gain ≤ ONE) (w : Word) :
      -ONE ≤ fmul gain (noiseSample w) ∧ fmul gain (noiseSample w) ≤ ONE :=
    fmul_mem hg.1 hg.2 (by decide) (by decide) (noiseSample_mem w).1 (noiseSample_mem w).2 (by decide) (by decide)
  unfold noiseMux
  split
  · exact hvoice hw white
  · exact hvoice hp pink

/-- Settles O50: three oscillators and the noise, each in `-ONE .. ONE`. -/
theorem bankAndFilterInputAreBoundedSums : Obligations.BankAndFilterInputAreBoundedSums := by
  unfold Obligations.BankAndFilterInputAreBoundedSums
  intro s h
  have reg := h.act
  have hO1 : -ONE ≤ tickO1 s ∧ tickO1 s ≤ ONE :=
    oscOut_mem_one (h.oscAmp_mem (reg .mul1).1 (reg .mul1).2) (reg .sharp1) h.osc1 _
  have hO2 : -ONE ≤ tickO2 s ∧ tickO2 s ≤ ONE :=
    oscOut_mem_one (h.oscAmp_mem (reg .mul2).1 (reg .mul2).2) (reg .sharp2) h.osc2 _
  have hO3 : -ONE ≤ tickO3 s ∧ tickO3 s ≤ ONE :=
    oscOut_mem_one (h.oscAmp3_mem (reg .mul3).1 (reg .mul3).2 _) (reg .sharp3) h.osc3 _
  have hnoise : -ONE ≤ tickNoise s ∧ tickNoise s ≤ ONE :=
    noiseMux_mem (reg .mulWhiteNoise) (reg .mulPinkNoise) _ _ _
  have hbank : tickBank s = tickO1 s + tickO2 s + tickO3 s := rfl
  have hx : tickX s = tickBank s + tickNoise s := rfl
  exact ⟨hbank, by omega, by omega, hx, by omega, by omega⟩

end Sys2Proof.Machine
end

section
/-! SUPPORT. The noise multiplexer (44_filter_output.md R180, R181): which voice each position of the switch takes. -/

namespace Sys2Proof.Machine

/-- A noise input is its word clamped to `-ONE .. ONE` (R180). -/
theorem noiseSample_eq_max_min (w : Word) : noiseSample w = max (-ONE) (min ONE (s32 w)) := clamp_eq_max_min (by decide)

/-- Position 0 takes the white voice alone (R181). -/
theorem noiseMux_white (white pink : Word) (gw gp : Int) : noiseMux white pink 0 gw gp = fmul gw (noiseSample white) :=
  if_pos rfl

/-- Position 1 takes the pink voice alone (R181). -/
theorem noiseMux_pink (white pink : Word) (gw gp : Int) : noiseMux white pink 1 gw gp = fmul gp (noiseSample pink) :=
  if_neg one_ne_zero

/-- A voice at full gain is its clamped input (R181). -/
theorem fmul_one_noiseSample (w : Word) : fmul ONE (noiseSample w) = noiseSample w := by
  obtain ⟨hlo, hhi⟩ := noiseSample_mem w
  exact fmul_one_left (le_trans (by decide) hlo) (hhi.trans (by decide))

/-- Settles O51: the switch position by position, then the gains 1 and 0. -/
theorem noiseIsTheChosenVoice : Obligations.NoiseIsTheChosenVoice := by
  unfold Obligations.NoiseIsTheChosenVoice
  intro white pink gw gp hw hw1 hp hp1
  rw [← noiseSample_eq_max_min, ← noiseSample_eq_max_min]
  exact ⟨noiseMux_white .., noiseMux_pink .., (noiseMux_white ..).trans (fmul_one_noiseSample white),
    (noiseMux_pink ..).trans (fmul_one_noiseSample pink), (noiseMux_white ..).trans (fmul_zero_left _),
    (noiseMux_pink ..).trans (fmul_zero_left _), noiseMux_mem ⟨hw, hw1⟩ ⟨hp, hp1⟩ white pink⟩

end Sys2Proof.Machine
end

section
/-! SUPPORT. The cutoff (44_filter_output.md R191, R192): each operation from the filter envelope to the stage coefficient keeps
the order of its argument. -/

namespace Sys2Proof.Machine

/-- The fix product by a non-negative factor keeps the order, saturated or not (00_scope.md R13). -/
theorem fmul_le_fmul_of_nonneg_right {a a' b : Int} (h : a ≤ a') (hb : 0 ≤ b) : fmul a b ≤ fmul a' b := by
  have hdiv : a * b / 16777216 ≤ a' * b / 16777216 :=
    Int.ediv_le_ediv (by norm_num) (Int.mul_le_mul_of_nonneg_right h hb)
  unfold fmul sat32
  omega

/-- Clamping keeps the order (00_scope.md R13). -/
theorem clamp_mono {x y lo hi : Int} (hle : lo ≤ hi) (h : x ≤ y) : clamp x lo hi ≤ clamp y lo hi := by
  rw [clamp_eq_max_min hle, clamp_eq_max_min hle]
  omega

theorem k20kInc_nonneg (c : Cfg) : 0 ≤ k20kInc c := by
  unfold k20kInc rnd
  positivity

/-- The coefficient of a cutoff below a quarter of the sample rate is the first quarter of the sine (R192). -/
theorem cutCoef_eq_sinQuarter {ci : Int} (h0 : 0 ≤ ci) (h1 : ci ≤ CUT_MAX_INC) : cutCoef ci = sinQuarter ci.toNat := by
  simp only [CUT_MAX_INC] at h1
  have hword : (u32 ci).toNat = ci.toNat := by
    have := toNat_u32 ci
    omega
  rw [cutCoef, sinQ_of_le_quarter (by omega), hword]

/-- The coefficient grows with the cutoff (R192). -/
theorem cutCoef_mono {ci ci' : Int} (h0 : 0 ≤ ci) (h : ci ≤ ci') (h1 : ci' ≤ CUT_MAX_INC) : cutCoef ci ≤ cutCoef ci' := by
  rw [cutCoef_eq_sinQuarter h0 (h.trans h1), cutCoef_eq_sinQuarter (h0.trans h) h1]
  simp only [CUT_MAX_INC] at h1
  exact sinQuarter_mono (by omega) (by omega)

/-- The coefficient of the highest cutoff (R192). -/
theorem cutCoef_max : cutCoef CUT_MAX_INC = ONE - 1 := by decide

section
variable {c : Cfg} (hc : c.wf = true)
include hc

/-- The bounds of the cutoff of a legal configuration are in order (R191, 93_implementation_defined.md U16). -/
theorem cutMinInc_le_of_wf : cutMinInc c ≤ CUT_MAX_INC := by
  obtain ⟨-, -, -, -, hmin⟩ := (Cfg.wf_iff c).1 hc
  exact hmin

/-- The cutoff increment does not fall as the filter envelope rises (R191). -/
theorem cutoffInc_mono {e e' f : Int} (h : e ≤ e') (hf : 0 ≤ f) : cutoffInc c e f ≤ cutoffInc c e' f := by
  refine clamp_mono (cutMinInc_le_of_wf hc) (Int.ediv_le_ediv (by norm_num) ?_)
  exact Int.mul_le_mul_of_nonneg_right (fmul_le_fmul_of_nonneg_right h hf) (k20kInc_nonneg c)

/-- A silent filter envelope leaves the lowest cutoff (R191). -/
theorem cutoffInc_zero (f : Int) : cutoffInc c 0 f = cutMinInc c := by
  have hmin := cutMinInc_nonneg c
  rw [cutoffInc, fmul_zero_left, zero_mul, Int.zero_ediv, clamp_eq_max_min (cutMinInc_le_of_wf hc)]
  omega

end

/-- Settles O52: increment and coefficient by their bounds and their order, the values at 48000 Hz by evaluation. -/
theorem cutoffIsClampedAndMonotone : Obligations.CutoffIsClampedAndMonotone := by
  unfold Obligations.CutoffIsClampedAndMonotone
  norm_num only -- the powers of two become the numerals of the model and its laws
  refine ⟨fun c e e' f hc _ hle _ hf _ => ?law, fun ci => rfl, by decide, by decide, by decide, by decide, by decide,
    by decide⟩
  have hmin := cutMinInc_le_of_wf hc
  obtain ⟨hlo, hhi⟩ := clamp_bounds (fmul e f * k20kInc c / 16777216) hmin
  obtain ⟨h0, h1⟩ := cutoffInc_mem hc e f
  obtain ⟨h0', h1'⟩ := cutoffInc_mem hc e' f
  have hmono := cutoffInc_mono hc hle hf
  exact ⟨clamp_eq_max_min hmin, hlo, hhi, hmono, cutoffInc_zero hc f, (cutCoef_mem h0 h1).1, cutCoef_mono h0 hmono h1',
    (cutCoef_mono h0' h1' le_rfl).trans_eq cutCoef_max⟩

end Sys2Proof.Machine
end

section
/-! SUPPORT. The soft clipper (44_filter_output.md R194): the two branches of its magnitude, and its symmetry. -/

namespace Sys2Proof.Machine

/-- From 1.5 on the clipper is flat (R194). -/
theorem softClipAbs_of_ge {m : Int} (h : 25165824 ≤ m) : softClipAbs m = ONE := if_pos h

/-- Below 1.5 the clipper is the clamped cubic (R194). -/
theorem softClipAbs_of_lt {m : Int} (h : m < 25165824) :
    softClipAbs m = max 0 (min ONE (m - fmul C427 (fmul (fmul m m) m))) :=
  (if_neg h.not_ge).trans (clamp_eq_max_min (by decide))

theorem softClip_of_nonneg {u : Int} (h : 0 ≤ u) : softClip u = softClipAbs u := if_neg h.not_gt

theorem softClip_of_neg {u : Int} (h : u < 0) : softClip u = -softClipAbs (-u) := if_pos h

/-- The clipper is odd (R194). -/
theorem softClip_neg (u : Int) : softClip (-u) = -softClip u := by
  rcases lt_trichotomy u 0 with h | rfl | h
  · rw [softClip_of_nonneg (by omega), softClip_of_neg h, neg_neg]
  · simp
  · rw [softClip_of_neg (by omega), softClip_of_nonneg h.le, neg_neg]

/-- Settles O53: oddness, bound and the two branches; the values by evaluation. -/
theorem softClipIsOddAndBounded : Obligations.SoftClipIsOddAndBounded := by
  unfold Obligations.SoftClipIsOddAndBounded
  refine ⟨fun u => ⟨softClip_neg u, (softClip_mem u).1, (softClip_mem u).2, fun h => ?flat, fun h h' => ?cubic⟩,
    by decide, by decide, by decide, by decide, by decide, by decide⟩
  case flat => exact (softClip_of_nonneg (le_trans (by decide) h)).trans (softClipAbs_of_ge h)
  case cubic => exact (softClip_of_nonneg h).trans (softClipAbs_of_lt h')

end Sys2Proof.Machine
end

section
/-! SUPPORT. The ladder and the stereo output (44_filter_output.md R193, R195 to R197): the bound of a signal scaled by a gain
that may exceed 1, and each stage as the exact sum that its word holds. -/

namespace Sys2Proof.Machine

/-- A signal in `-ONE .. ONE` scaled by a gain stays within the gain, for every gain that is a fix (00_scope.md R13). -/
theorem fmul_mem_gain {k y : Int} (hk : 0 ≤ k) (hk1 : k ≤ 2147483647) (hy : -ONE ≤ y) (hy1 : y ≤ ONE) :
    -k ≤ fmul k y ∧ fmul k y ≤ k := by
  simp only [ONE] at *
  have hlo := Int.mul_le_mul_of_nonneg_left hy hk
  have hhi := Int.mul_le_mul_of_nonneg_left hy1 hk
  rw [fmul, sat32_of_mem (by omega) (by omega)]
  omega

/-- The word of a stage holds its new output exactly (R195). -/
theorem s32_poleStep {y : Word} {input g : Int} (hg : 0 ≤ g) (hg1 : g ≤ ONE) (hy : InSignal y)
    (hi : -ONE ≤ input ∧ input ≤ ONE) : s32 (poleStep y input g) = s32 y + fmul g (input - s32 y) := by
  obtain ⟨hlo, hhi⟩ := lerp_mem hg hg1 hy.1 hy.2 hi.1 hi.2 (by decide)
  exact s32_u32 (le_trans (by decide) hlo) (hhi.trans (by decide))

/-- The input of the clipper is far inside the fix range (R195). -/
theorem ladder_feedback_mem {x k : Int} {y : Word} (hx : -4 * ONE ≤ x) (hx1 : x ≤ 4 * ONE) (hk : 0 ≤ k)
    (hk1 : k ≤ 4 * ONE) (hy : InSignal y) : -8 * ONE ≤ x - fmul k (s32 y) ∧ x - fmul k (s32 y) ≤ 8 * ONE := by
  have hfeedback := fmul_mem_gain hk (hk1.trans (by decide)) hy.1 hy.2
  omega

/-- The feedback gain is four times the resonance (R193). -/
theorem resGain_eq (r : Int) : resGain r = 4 * r := Int.mul_comm r 4

/-- No command but `TICK` writes the filter (R195, 10_state.md R33). -/
theorem exec_filter_of_ne_tick {i : Instr} {s t : State} (h : exec i s = .next t) (hi : i ≠ .tick) :
    t.filter = s.filter := by
  obtain ⟨-, -, -, -, -, -, -, -, -, hrender, -⟩ := eachCommandWritesOnlyItsState i s t h
  obtain ⟨-, -, -, -, -, hfilter, -⟩ := hrender hi
  exact hfilter

/-- Settles O54: the stages one by one, each fed with a value in `-ONE .. ONE`. -/
theorem ladderStaysBounded : Obligations.LadderStaysBounded := by
  unfold Obligations.LadderStaysBounded
  refine ⟨fun f x g k h hx hx1 hg hg1 hk hk1 => ?stages, fun i s t => exec_filter_of_ne_tick,
    fun r => ⟨resGain_eq r, fun h0 h1 => ?gain⟩, fun s h => ⟨?register, _, exec_tick s, ?tick⟩⟩
  case stages =>
    have hnew := h.ladder x k ⟨hg, hg1⟩
    obtain ⟨h1, h2, h3, h4⟩ := h
    obtain ⟨hlo, hhi⟩ := ladder_feedback_mem hx hx1 hk hk1 h4
    obtain ⟨hnew1, hnew2, hnew3, hnew4⟩ := hnew
    exact ⟨hlo, hhi, ⟨hnew1, hnew2, hnew3, hnew4⟩, s32_poleStep hg hg1 h1 (softClip_mem _), s32_poleStep hg hg1 h2 hnew1,
      s32_poleStep hg hg1 h3 hnew2, s32_poleStep hg hg1 h4 hnew3⟩
  case gain =>
    rw [resGain_eq]
    omega
  case register =>
    obtain ⟨h0, h1⟩ : 0 ≤ s32 s.act.res ∧ s32 s.act.res ≤ ONE := h .res
    omega
  case tick =>
    rw [← resGain_eq]
    rfl

/-- Both channels carry the filter's output scaled by the pan gain, within that gain (R197). -/
theorem State.Inv.s32_tickOut {s : State} (h : s.Inv) :
    s32 (tickOut s) = fmul PAN_GAIN (s32 (tickFilter s).y4) ∧ -PAN_GAIN ≤ s32 (tickOut s) ∧ s32 (tickOut s) ≤ PAN_GAIN := by
  obtain ⟨-, -, -, hy4⟩ := h.tickState.filter
  rw [State.tickState_filter] at hy4
  obtain ⟨hlo, hhi⟩ := fmul_mem_gain (k := PAN_GAIN) (by decide) (by decide) hy4.1 hy4.2
  have hword : s32 (tickOut s) = fmul PAN_GAIN (s32 (tickFilter s).y4) :=
    s32_u32 (le_trans (by decide) hlo) (hhi.trans (by decide))
  exact ⟨hword, hword ▸ hlo, hword ▸ hhi⟩

/-- Settles O55: the pair of a tick is its output word twice. -/
theorem bothChannelsCarryTheFilterOutput : Obligations.BothChannelsCarryTheFilterOutput := by
  unfold Obligations.BothChannelsCarryTheFilterOutput
  intro s h
  exact ⟨_, tickOut s, exec_tick s, rfl, h.s32_tickOut⟩

end Sys2Proof.Machine
end

section
/-! SUPPORT. What a step does to the ports (60_exceptions.md R213, R217): which events it takes and which words it sends. -/

namespace Sys2Proof.Machine

section
variable {s t : State} {i : Instr}

/-- Only a `TICK` sends a pair (R213). -/
theorem exec_out_of_ne_tick (h : exec i s = .next t) (hi : i ≠ .tick) : t.out = s.out := by
  obtain ⟨-, -, -, -, -, -, -, -, -, htick, -⟩ := eachCommandWritesOnlyItsState i s t h
  obtain ⟨-, -, -, -, -, -, hout⟩ := htick hi
  exact hout

/-- Only a `GETP` sends a response (R213). -/
theorem exec_rsp_of_ne_getp (h : exec i s = .next t) (hi : ∀ a, i ≠ .getp a) : t.rsp = s.rsp := by
  obtain ⟨-, -, -, -, -, -, -, -, -, -, hgetp⟩ := eachCommandWritesOnlyItsState i s t h
  exact hgetp hi

/-- A step that completes on a transfer is the command it carries (20_memory.md R56). -/
theorem exec_of_step_command (h : step s = .next t) {w : CmdWord} {white pink : Word} {rest : List Event}
    (hi : s.input = .command w white pink :: rest) (hd : decode w = .command i) :
    exec i (({ s with input := rest } : State).takeSamples i white pink) = .next t := by
  obtain ⟨hc, -⟩ := step_cases h
  rwa [← step_command hc hi hd]

/-- Every step keeps the configuration (70_reset_and_hazards.md R225) and takes at most the first event. -/
theorem step_cfg_input (h : step s = .next t) : t.cfg = s.cfg ∧ t.input = s.input.tail := by
  obtain ⟨-, ⟨hi, rfl⟩ | ⟨rest, hi, rfl⟩ | ⟨w, a, b, rest, op, hi, -, rfl⟩ | ⟨w, a, b, rest, i, hi, -, he⟩⟩ := step_cases h
  · simp [hi]
  · rw [hi]
    exact ⟨rfl, rfl⟩
  · rw [hi]
    exact ⟨rfl, rfl⟩
  · obtain ⟨hcfg, hinput, -, -⟩ := exec_ports he
    rw [hcfg, hinput, hi, State.takeSamples_cfg, State.takeSamples_input]
    exact ⟨rfl, rfl⟩

/-- A step that executes neither a `TICK` nor a `GETP` sends nothing (R213). -/
theorem step_sends_nothing (h : step s = .next t)
    (hother : ∀ w white pink rest, s.input = .command w white pink :: rest →
      decode w ≠ .command .tick ∧ ∀ a, decode w ≠ .command (.getp a)) : t.out = s.out ∧ t.rsp = s.rsp := by
  obtain ⟨-, ⟨-, rfl⟩ | ⟨rest, -, rfl⟩ | ⟨-, -, -, rest, -, -, -, rfl⟩ | ⟨w, a, b, rest, i, hi, hd, he⟩⟩ := step_cases h
  · exact ⟨rfl, rfl⟩
  · exact ⟨rfl, rfl⟩
  · exact ⟨rfl, rfl⟩
  · obtain ⟨htick, hgetp⟩ := hother w a b rest hi
    simp only [hd, ne_eq, Decoded.command.injEq] at htick hgetp
    rw [exec_out_of_ne_tick he htick, exec_rsp_of_ne_getp he hgetp, State.takeSamples_out, State.takeSamples_rsp]
    exact ⟨rfl, rfl⟩

end

/-- Settles O11: the step on a `TICK` and on a `GETP` is that command, and every other step is silent. -/
theorem outputsAreOnePairPerTickAndOneWordPerGetp : Obligations.OutputsAreOnePairPerTickAndOneWordPerGetp := by
  unfold Obligations.OutputsAreOnePairPerTickAndOneWordPerGetp
  intro s t h
  obtain ⟨hcfg, hinput⟩ := step_cfg_input h
  refine ⟨hcfg, hinput, ?tick, ?getp, step_sends_nothing h⟩
  case tick =>
    intro w white pink rest hi hd
    obtain rfl := Host.Outcome.next.inj (exec_of_step_command h hi hd)
    exact ⟨_, rfl, rfl⟩
  case getp =>
    intro w white pink rest a hi hd
    obtain rfl := Host.Outcome.next.inj (exec_of_step_command h hi hd)
    exact ⟨_, rfl, rfl⟩

/-- Settles O8: the step with nothing delivered. -/
theorem blockWithoutCommandKeepsItsState : Obligations.BlockWithoutCommandKeepsItsState := by
  unfold Obligations.BlockWithoutCommandKeepsItsState
  intro s hc hi
  exact step_idle hc hi

end Sys2Proof.Machine
end

section
/-! SUPPORT. Silence without a note (60_exceptions.md R208): what each of its conditions contributes, whatever the other registers
hold. -/

namespace Sys2Proof.Machine

section
variable {s : State}

/-- An Idle envelope gives no amplitude while the selector stands at the envelope (42_lfo_modsel.md R136). -/
theorem tickAmp_of_selector_zero (ha : s.ega.stage = .idle) (hsel : s.act.selectorAdsrtremolo = 0) : tickAmp s = 0 := by
  have hpos : s32 s.act.selectorAdsrtremolo = 0 := hsel ▸ s32_zero
  rw [tickAmp, tickEnvA, egOut_of_idle _ ha, hpos, ampSel, lerp_zero]

/-- Without input, or without gain, both voices of the noise are silent, so the switch does not matter (44_filter_output.md
R180, R181). -/
theorem tickNoise_of_silent
    (h : s.whiteIn = 0 ∧ s.pinkIn = 0 ∨ s.act.mulWhiteNoise = 0 ∧ s.act.mulPinkNoise = 0) : tickNoise s = 0 := by
  have hsample : noiseSample 0#32 = 0 := by decide
  obtain ⟨hwhite, hpink⟩ | ⟨hwhite, hpink⟩ := h
  · simp [tickNoise, noiseMux, hwhite, hpink, hsample]
  · simp [tickNoise, noiseMux, hwhite, hpink]

/-- A tick with nothing at the input of a filter at 0 leaves it at 0 (R195). -/
theorem tickFilter_of_input_zero (hx : tickX s = 0) (hf : s.filter = ⟨0, 0, 0, 0⟩) : tickFilter s = ⟨0, 0, 0, 0⟩ := by
  rw [tickFilter, hx, hf, ladder_zero]

/-- A tick that leaves the filter at 0 sends 0 (R197). -/
theorem tickOut_of_filter_zero (h : tickFilter s = ⟨0, 0, 0, 0⟩) : tickOut s = 0 := by
  simp [tickOut, h, stereo]

end

/-- Settles O31: the bank is silent without amplitude, so nothing reaches the filter. -/
theorem idleEnvelopeIsSilent : Obligations.IdleEnvelopeIsSilent := by
  unfold Obligations.IdleEnvelopeIsSilent
  intro s ha hsel hf hnoise
  have hx : tickX s = 0 := by
    rw [tickX, tickBank_of_silent (tickAmp_of_selector_zero ha hsel), tickNoise_of_silent hnoise, add_zero]
  have hfilter : tickFilter s = ⟨0, 0, 0, 0⟩ := tickFilter_of_input_zero hx hf
  refine ⟨_, exec_tick s, ?_, ?_⟩
  · rw [State.emit_out, State.tickState_out, tickOut_of_filter_zero hfilter]
  · rw [State.emit_filter, State.tickState_filter, hfilter, hf]

end Sys2Proof.Machine
end

section
/-! SUPPORT. A block that is only clocked (70_reset_and_hazards.md R227): a `BLK` finds nothing to do in a quiet state, and a
`TICK` keeps it quiet and sends zeros. -/

namespace Sys2Proof.Machine

/-- The reset state of a legal configuration is quiet (R227). -/
theorem State.resetWith_quiet {c : Cfg} (hc : c.wf = true) : (State.resetWith c).Quiet := ⟨hc, rfl, rfl, rfl, rfl, rfl, rfl⟩

section
variable {s : State}

theorem State.Quiet.settled (h : s.Quiet) : s.Settled := ⟨h.ev, h.act.trans h.pend.symm⟩

/-- What the host has yet to deliver does not matter to being quiet. -/
theorem State.Quiet.withInput (h : s.Quiet) (es : List Event) : ({ s with input := es } : State).Quiet := { h with }

/-- A `TICK` leaves a quiet block quiet, whatever stands on the sample ports (R227). -/
theorem State.Quiet.ticked (h : s.Quiet) (x : Word × Word) : (s.ticked x).Quiet where
  cfg := h.cfg
  pend := h.pend
  act := h.act
  ev := h.ev
  ega := by simpa [State.ticked, egTick_of_idle _ h.ega] using h.ega
  egf := by simpa [State.ticked, egTick_of_idle _ h.egf] using h.egf
  filter := tickFilter_of_silent (s := { s with whiteIn := x.1, pinkIn := x.2 }) h.ega h.act h.filter

/-- A `TICK` of a quiet block sends a pair of zeros, whatever stands on the sample ports (R227). -/
theorem State.Quiet.ticked_out (h : s.Quiet) (x : Word × Word) : (s.ticked x).out = s.out ++ [(0, 0)] := by
  have hout : tickOut { s with whiteIn := x.1, pinkIn := x.2 } = 0 := tickOut_of_silent h.ega h.act h.filter
  simp [State.ticked, hout]

/-- A run whose first event is the transfer of a `TICK`, in whatever word. -/
theorem runOn_cons_of_isTick (hc : s.cfg.wf = true) {e : Event} (he : e.isTick = true) (es : List Event) :
    ∃ x, s.runOn (e :: es) = (s.ticked x).runOn es := by
  rcases e with ⟨w, a, b⟩ | _
  · exact ⟨(a, b), runOn_tick (t := { s.ticked (a, b) with input := es }) hc (of_decide_eq_true he) rfl⟩
  · exact absurd he Bool.false_ne_true

/-- A run whose first event is the transfer of a `BLK`, in whatever word. -/
theorem runOn_cons_of_isBlk (hc : s.cfg.wf = true) {e : Event} (he : e.isBlk = true) (es : List Event) :
    s.runOn (e :: es) = s.blockBoundary.runOn es := by
  rcases e with ⟨w, a, b⟩ | _
  · rw [← runOn_withInput s.blockBoundary es, ← s.blockBoundary_withInput]
    exact runOn_command hc (of_decide_eq_true he) (by simp) (exec_blk _)
  · exact absurd he Bool.false_ne_true

/-- No word is both a `TICK` and a `BLK`. -/
theorem Event.isTick_eq_false_of_isBlk {e : Event} (h : e.isBlk = true) : e.isTick = false := by
  rcases e with ⟨w, a, b⟩ | _
  · have hd : decode w = .command .blk := of_decide_eq_true h
    simp [Event.isTick, hd]
  · rfl

/-- A quiet block that is only clocked stays quiet and sends zeros, one pair for each `TICK` (R227). -/
theorem State.Quiet.runOn_clocked (h : s.Quiet) {es : List Event} (hes : ∀ e ∈ es, e.isTick = true ∨ e.isBlk = true) :
    ∃ t, s.runOn es = .next t ∧ t.Quiet ∧ t.out = s.out ++ List.replicate (es.countP Event.isTick) (0, 0) := by
  induction es generalizing s with
  | nil => exact ⟨_, runOn_nil s, h.withInput [], (List.append_nil _).symm⟩
  | cons e es ih =>
    obtain ⟨htick | hblk, hes⟩ := List.forall_mem_cons.1 hes
    · obtain ⟨x, hrun⟩ := runOn_cons_of_isTick h.cfg htick es
      obtain ⟨t, ht, hq, hout⟩ := ih (h.ticked x) hes
      refine ⟨t, hrun.trans ht, hq, ?_⟩
      rw [hout, h.ticked_out, List.countP_cons_of_pos htick, List.replicate_succ, List.append_assoc, List.singleton_append]
    · rw [runOn_cons_of_isBlk h.cfg hblk, h.settled.blockBoundary,
        List.countP_cons_of_neg (Bool.not_eq_true _ ▸ Event.isTick_eq_false_of_isBlk hblk)]
      exact ih h hes

end

/-- Settles O30: reset is quiet, and a quiet block stays silent, by induction on the events. -/
theorem unprogrammedBlockIsSilent : Obligations.UnprogrammedBlockIsSilent := by
  unfold Obligations.UnprogrammedBlockIsSilent
  exact ⟨fun c => State.resetWith_quiet, fun s es h hes => h.runOn_clocked hes⟩

end Sys2Proof.Machine
end

section
/-! SUPPORT. The state after reset (70_reset_and_hazards.md R225, R226). -/

namespace Sys2Proof.Machine

/-- The reset values of the registers: 0 but for the two octave ranges (R226). -/
theorem Param.s32_resetWord (p : Param) : s32 p.resetWord = if p = .range2 ∨ p = .range3 then 1 else 0 := by
  cases p <;> decide

/-- Settles O1: the items of the reset state, and the two kinds of command that send. -/
theorem resetLeavesTheStatedValues : Obligations.ResetLeavesTheStatedValues := by
  unfold Obligations.ResetLeavesTheStatedValues
  intro c
  have hnote : (noteIncAt 48000 0).toNat = 731558 := (List.cons.inj noteIncAt_48000).1
  refine ⟨fun p => ?registers, fun p => rfl, rfl, rfl, hnote, rfl, rfl, rfl, rfl, rfl, rfl, rfl, rfl, rfl, rfl,
    fun i s t h => ⟨fun hi hrsp => ?response, fun hi hout => ?sample⟩⟩
  case registers => exact (congrArg s32 (Params.reset_get p)).trans p.s32_resetWord
  case response => rw [exec_rsp_of_ne_getp h hi, hrsp]
  case sample => rw [exec_out_of_ne_tick h hi, hout]

/-- Settles O7: the step on `rst`. -/
theorem rstRestoresTheResetState : Obligations.RstRestoresTheResetState := by
  unfold Obligations.RstRestoresTheResetState
  intro s rest hc hi
  exact step_rst hc hi

end Sys2Proof.Machine
end

section
/-! SUPPORT. Notes between two blocks (70_reset_and_hazards.md R231): a run of them records each in the latch in turn. -/

namespace Sys2Proof.Machine

/-- What the latch holds after a note given by its operands (40_commands.md R88). -/
def NoteLatch.recordNote (l : NoteLatch) (n : Byte × Bool × Word) : NoteLatch := l.record n.1 n.2.1 n.2.2

/-- The latch remembers whether it held a note-on or any of the notes recorded since is one (10_state.md R24). -/
theorem NoteLatch.trig_foldl_recordNote (ns : List (Byte × Bool × Word)) (l : NoteLatch) :
    (ns.foldl NoteLatch.recordNote l).trig = true ↔ l.trig = true ∨ ∃ n ∈ ns, n.2.1 = true := by
  induction ns generalizing l with
  | nil => simp
  | cons n ns ih =>
    have hrecord : (l.recordNote n).trig = (n.2.1 || l.trig) := rfl
    rw [List.foldl_cons, ih, hrecord, Bool.or_eq_true, List.exists_mem_cons_iff, or_comm (a := n.2.1 = true), or_assoc]

/-- A run whose first event is a `NOTE`. -/
theorem runOn_note_cons {s : State} (hc : s.cfg.wf = true) (n : Byte × Bool × Word) (es : List Event) :
    s.runOn (Event.note n :: es) = ({ s with latch := s.latch.recordNote n } : State).runOn es :=
  runOn_command (t := { s with latch := s.latch.recordNote n, input := es }) hc (decodeOfEncodeIsTheCommand _) (by simp) rfl

/-- A run of notes records them one after the other and touches nothing else (R231). -/
theorem runOn_notes {s : State} (hc : s.cfg.wf = true) (ns : List (Byte × Bool × Word)) :
    s.runOn (ns.map Event.note) = .next { s with latch := ns.foldl NoteLatch.recordNote s.latch, input := [] } := by
  induction ns generalizing s with
  | nil => exact runOn_nil s
  | cons n ns ih =>
    rw [List.map_cons, runOn_note_cons hc, List.foldl_cons]
    exact ih hc

/-- Settles O23: the last note recorded gives the latch's fields but `trig`, which all of them give. -/
theorem notesBetweenBlocksCoalesce : Obligations.NotesBetweenBlocksCoalesce := by
  unfold Obligations.NotesBetweenBlocksCoalesce
  intro s ns n hc
  have htrig := NoteLatch.trig_foldl_recordNote (ns ++ [n]) s.latch
  have hrun := runOn_notes hc (ns ++ [n])
  rw [List.foldl_concat] at htrig hrun
  exact ⟨_, hrun, rfl, rfl, s32_u32_noteVel n.2.2, rfl, rfl, htrig⟩

end Sys2Proof.Machine
end
